-- ==== Sys2Proof/Word.lean ====
section
/-!
DEFINITION. Sys2Proof/Word.lean: the byte and the word of the core (rule R1 of 00_scope.md) and their wrapping
arithmetic (rule R2). Nothing in this core is signed.
-/
namespace Sys2Proof

/-- A register or memory cell value: an unsigned 8-bit value (R1). -/
abbrev Byte := BitVec 8

/-- An address, the program counter or an effective address: an unsigned 16-bit value (R1). -/
abbrev Word := BitVec 16

/-- `add8(a, b) = (a + b) mod 256` (R2). -/
def add8 (a b : Byte) : Byte := a + b

/-- `sub8(a, b) = (a - b) mod 256` (R2). -/
def sub8 (a b : Byte) : Byte := a - b

/-- `add16(a, b) = (a + b) mod 65536` (R2). UNVERIFIED: the wrap at 16 bits is the spec's own decision (92 D7, D8; log 6). -/
def add16 (a b : Word) : Word := a + b

end Sys2Proof
end

