-- ==== Sys2Proof/Config.lean ====
section
/-!
DEFINITION. Sys2Proof/Config.lean: the model arguments of the spec (00_scope.md section 4; 92_eei_decisions.md, closing
table). Those the spec leaves OPEN without a default are opaque constants here, so no proof can learn their value.
-/
namespace Sys2Proof

/-- FLAG_MODE (R14, R15; 92 D4): whether SetZN only sets Z and N, or sets and clears them. -/
inductive FlagMode where
  /-- R14: the default, and the behaviour the source requires. -/
  | sticky
  /-- R15: selectable as a model argument only. -/
  | parity
  deriving DecidableEq, Repr

/-- ZP_PTR_WRAP (R57; 92 D6): where a zero-page pointer at 0xFF finds its high byte. -/
inductive ZpPtrWrap where
  /-- The high byte comes from 0x0000. -/
  | zpWrap
  /-- The high byte comes from 0x0100. -/
  | linear
  deriving DecidableEq, Repr, Inhabited

/-- The model arguments of one core. DESIGN CHOICE (log 1): the host fixes the form of exec and step, so the arguments
travel in a field of State that no step writes, and a statement about every state is a statement about all their values. -/
structure Params where
  /-- Z_BIT: the bit of P that holds the zero flag (R11). -/
  zBit : Fin 8
  /-- N_BIT: the bit of P that holds the negative flag (R12). -/
  nBit : Fin 8
  /-- FLAG_MODE (R14, R15). -/
  flagMode : FlagMode
  /-- ZP_PTR_WRAP (R57). -/
  zpPtrWrap : ZpPtrWrap
  /-- IMPLEMENTED_SET (R41): the opcodes this core recognises, of the 41 of R39. -/
  implementedSet : List Byte
  deriving DecidableEq, Repr

/-- The constraints the source imposes on the two flag positions: N_BIT ≠ 7 and abs(N_BIT − Z_BIT) ≥ 2 (R12; 92 D3). -/
def admissiblePlacement (z n : Fin 8) : Bool :=
  n.val != 7 && (decide (z.val + 2 ≤ n.val) || decide (n.val + 2 ≤ z.val))

/-- Every admissible (Z_BIT, N_BIT), in rising order: 36 pairs. -/
def Config.flagPlacements : List (Fin 8 × Fin 8) :=
  (List.finRange 8).flatMap fun z =>
    ((List.finRange 8).filter fun n => admissiblePlacement z n).map fun n => (z, n)

/-- Free value (92 D2, D3; log 2): which admissible pair this core has. No body: nothing can learn it. -/
opaque Config.flagPlacementIndex : Fin 36

/-- The (Z_BIT, N_BIT) of the core that State.reset describes: some admissible pair, not known which. -/
def Config.flagPlacement : Fin 8 × Fin 8 :=
  Config.flagPlacements.getD Config.flagPlacementIndex.val (0, 2)

/-- Free value (92 D6; log 3): the ZP_PTR_WRAP of the core that State.reset describes. No body. -/
opaque Config.zpPtrWrap : ZpPtrWrap

end Sys2Proof
end

