-- ==== Sys2Proof/Syntax.lean ====
section
/-!
DEFINITION. Sys2Proof/Syntax.lean: the instructions of the core, one constructor per row of spec/opcode_table.json
(rule R39 of 30_encoding.md), with the mnemonic and the addressing mode of each (R37, R39).
-/
namespace Sys2Proof

/-- The 16 mnemonics (R47). -/
inductive Mnemonic where
  | lda | ldx | ldy | sta | stx | sty | tax | tay | txa | tya | tsx | txs | pha | php | pla | plp
  deriving DecidableEq, Repr

/-- The addressing modes (R37; 90 C4). -/
inductive Mode where
  | imp | imm | zp | zpx | zpy | abs | abx | aby | izx | izy
  deriving DecidableEq, Repr

/-- One constructor per opcode of R39. An operand byte is op8, an operand word op16 (R38). -/
inductive Instr where
  /-- 0xA9 LDA `#$nn`: load accumulator (R61, mode R50). -/
  | ldaImm (op8 : Byte)
  /-- 0xA5 LDA `$nn`: load accumulator (R61, mode R51). -/
  | ldaZp (op8 : Byte)
  /-- 0xB5 LDA `$nn,X`: load accumulator (R61, mode R52). -/
  | ldaZpX (op8 : Byte)
  /-- 0xAD LDA `$nnnn`: load accumulator (R61, mode R54). -/
  | ldaAbs (op16 : Word)
  /-- 0xBD LDA `$nnnn,X`: load accumulator (R61, mode R55). -/
  | ldaAbsX (op16 : Word)
  /-- 0xB9 LDA `$nnnn,Y`: load accumulator (R61, mode R56). -/
  | ldaAbsY (op16 : Word)
  /-- 0xA1 LDA `($nn,X)`: load accumulator (R61, mode R58). -/
  | ldaIzX (op8 : Byte)
  /-- 0xB1 LDA `($nn),Y`: load accumulator (R61, mode R59). -/
  | ldaIzY (op8 : Byte)
  /-- 0xA2 LDX `#$nn`: load X (R62, mode R50). -/
  | ldxImm (op8 : Byte)
  /-- 0xA6 LDX `$nn`: load X (R62, mode R51). -/
  | ldxZp (op8 : Byte)
  /-- 0xB6 LDX `$nn,Y`: load X (R62, mode R53). -/
  | ldxZpY (op8 : Byte)
  /-- 0xAE LDX `$nnnn`: load X (R62, mode R54). -/
  | ldxAbs (op16 : Word)
  /-- 0xBE LDX `$nnnn,Y`: load X (R62, mode R56). -/
  | ldxAbsY (op16 : Word)
  /-- 0xA0 LDY `#$nn`: load Y (R63, mode R50). -/
  | ldyImm (op8 : Byte)
  /-- 0xA4 LDY `$nn`: load Y (R63, mode R51). -/
  | ldyZp (op8 : Byte)
  /-- 0xB4 LDY `$nn,X`: load Y (R63, mode R52). -/
  | ldyZpX (op8 : Byte)
  /-- 0xAC LDY `$nnnn`: load Y (R63, mode R54). -/
  | ldyAbs (op16 : Word)
  /-- 0xBC LDY `$nnnn,X`: load Y (R63, mode R55). -/
  | ldyAbsX (op16 : Word)
  /-- 0x85 STA `$nn`: store accumulator (R64, mode R51). -/
  | staZp (op8 : Byte)
  /-- 0x95 STA `$nn,X`: store accumulator (R64, mode R52). -/
  | staZpX (op8 : Byte)
  /-- 0x8D STA `$nnnn`: store accumulator (R64, mode R54). -/
  | staAbs (op16 : Word)
  /-- 0x9D STA `$nnnn,X`: store accumulator (R64, mode R55). -/
  | staAbsX (op16 : Word)
  /-- 0x99 STA `$nnnn,Y`: store accumulator (R64, mode R56). -/
  | staAbsY (op16 : Word)
  /-- 0x81 STA `($nn,X)`: store accumulator (R64, mode R58). -/
  | staIzX (op8 : Byte)
  /-- 0x91 STA `($nn),Y`: store accumulator (R64, mode R59). -/
  | staIzY (op8 : Byte)
  /-- 0x86 STX `$nn`: store X (R65, mode R51). -/
  | stxZp (op8 : Byte)
  /-- 0x96 STX `$nn,Y`: store X (R65, mode R53). -/
  | stxZpY (op8 : Byte)
  /-- 0x8E STX `$nnnn`: store X (R65, mode R54). -/
  | stxAbs (op16 : Word)
  /-- 0x84 STY `$nn`: store Y (R66, mode R51). -/
  | styZp (op8 : Byte)
  /-- 0x94 STY `$nn,X`: store Y (R66, mode R52). -/
  | styZpX (op8 : Byte)
  /-- 0x8C STY `$nnnn`: store Y (R66, mode R54). -/
  | styAbs (op16 : Word)
  /-- 0xAA TAX: transfer A to X (R68). -/
  | tax
  /-- 0xA8 TAY: transfer A to Y (R69). -/
  | tay
  /-- 0x8A TXA: transfer X to A (R70). -/
  | txa
  /-- 0x98 TYA: transfer Y to A (R71). -/
  | tya
  /-- 0xBA TSX: transfer SP to X (R72). -/
  | tsx
  /-- 0x9A TXS: transfer X to SP (R73). -/
  | txs
  /-- 0x48 PHA: push accumulator (R76). -/
  | pha
  /-- 0x08 PHP: push status (R77). -/
  | php
  /-- 0x68 PLA: pull accumulator (R78). -/
  | pla
  /-- 0x28 PLP: pull status (R79). -/
  | plp
  deriving DecidableEq, Repr

/-- The mnemonic of an instruction (R39). -/
def Instr.mnemonic : Instr → Mnemonic
  | .ldaImm _ | .ldaZp _ | .ldaZpX _ | .ldaAbs _ | .ldaAbsX _ | .ldaAbsY _ | .ldaIzX _ | .ldaIzY _ => .lda
  | .ldxImm _ | .ldxZp _ | .ldxZpY _ | .ldxAbs _ | .ldxAbsY _ => .ldx
  | .ldyImm _ | .ldyZp _ | .ldyZpX _ | .ldyAbs _ | .ldyAbsX _ => .ldy
  | .staZp _ | .staZpX _ | .staAbs _ | .staAbsX _ | .staAbsY _ | .staIzX _ | .staIzY _ => .sta
  | .stxZp _ | .stxZpY _ | .stxAbs _ => .stx
  | .styZp _ | .styZpX _ | .styAbs _ => .sty
  | .tax => .tax
  | .tay => .tay
  | .txa => .txa
  | .tya => .tya
  | .tsx => .tsx
  | .txs => .txs
  | .pha => .pha
  | .php => .php
  | .pla => .pla
  | .plp => .plp

/-- The addressing mode of an instruction (R39). -/
def Instr.mode : Instr → Mode
  | .ldaImm _ | .ldxImm _ | .ldyImm _ => .imm
  | .ldaZp _ | .ldxZp _ | .ldyZp _ | .staZp _ | .stxZp _ | .styZp _ => .zp
  | .ldaZpX _ | .ldyZpX _ | .staZpX _ | .styZpX _ => .zpx
  | .ldxZpY _ | .stxZpY _ => .zpy
  | .ldaAbs _ | .ldxAbs _ | .ldyAbs _ | .staAbs _ | .stxAbs _ | .styAbs _ => .abs
  | .ldaAbsX _ | .ldyAbsX _ | .staAbsX _ => .abx
  | .ldaAbsY _ | .ldxAbsY _ | .staAbsY _ => .aby
  | .ldaIzX _ | .staIzX _ => .izx
  | .ldaIzY _ | .staIzY _ => .izy
  | .tax | .tay | .txa | .tya | .tsx | .txs | .pha | .php | .pla | .plp => .imp

end Sys2Proof
end

