-- ==== Sys2Proof/Decode.lean ====
section
/-!
DEFINITION. Sys2Proof/Decode.lean: bytes to instruction (R36 to R44 of 30_encoding.md) and back. The decoder matches the
whole opcode byte against R39; the encoder is written from the same table. UNVERIFIED (log 5): 38 of the 41 opcode values
are the spec's general knowledge (92 D1), all but 0xA9, 0xA1 and 0x48.
-/
namespace Sys2Proof

/-- `zext_16(b)`: the byte as a word with bits 15..8 zero (00_scope.md section 5). -/
def zext16 (b : Byte) : Word := b.setWidth 16

/-- The word of a low and a high byte, `high<<8 | low` (R4, R25, R38). -/
def wordOfBytes (lo hi : Byte) : Word := zext16 lo ||| (zext16 hi <<< 8)

/-- The low byte of a word, the one at the lower address (R25). -/
def lowByte (w : Word) : Byte := w.setWidth 8

/-- The high byte of a word, the one at the higher address (R25). -/
def highByte (w : Word) : Byte := (w >>> 8).setWidth 8

/-- How many operand bytes follow the opcode in each mode (R37). -/
def Mode.operandBytes : Mode → Nat
  | .imp => 0
  | .imm | .zp | .zpx | .zpy | .izx | .izy => 1
  | .abs | .abx | .aby => 2

/-- The length of an instruction in bytes (R36). -/
def Instr.length (i : Instr) : Nat := 1 + i.mode.operandBytes

/-- The three formats of R37: what the operand bytes of a recognised opcode build. -/
inductive Form where
  /-- One byte, no operand. -/
  | f1 (i : Instr)
  /-- Two bytes: the operand is op8. -/
  | f2 (mk : Byte → Instr)
  /-- Three bytes: the operand is op16, low byte first. -/
  | f3 (mk : Word → Instr)

/-- The dispatch table (R39, R44): a total function of the opcode byte; `none` is unrecognised. -/
def dispatch (op : Byte) : Option Form :=
  match op.toNat with
  | 0x08 => some (.f1 .php)
  | 0x28 => some (.f1 .plp)
  | 0x48 => some (.f1 .pha)
  | 0x68 => some (.f1 .pla)
  | 0x81 => some (.f2 .staIzX)
  | 0x84 => some (.f2 .styZp)
  | 0x85 => some (.f2 .staZp)
  | 0x86 => some (.f2 .stxZp)
  | 0x8A => some (.f1 .txa)
  | 0x8C => some (.f3 .styAbs)
  | 0x8D => some (.f3 .staAbs)
  | 0x8E => some (.f3 .stxAbs)
  | 0x91 => some (.f2 .staIzY)
  | 0x94 => some (.f2 .styZpX)
  | 0x95 => some (.f2 .staZpX)
  | 0x96 => some (.f2 .stxZpY)
  | 0x98 => some (.f1 .tya)
  | 0x99 => some (.f3 .staAbsY)
  | 0x9A => some (.f1 .txs)
  | 0x9D => some (.f3 .staAbsX)
  | 0xA0 => some (.f2 .ldyImm)
  | 0xA1 => some (.f2 .ldaIzX)
  | 0xA2 => some (.f2 .ldxImm)
  | 0xA4 => some (.f2 .ldyZp)
  | 0xA5 => some (.f2 .ldaZp)
  | 0xA6 => some (.f2 .ldxZp)
  | 0xA8 => some (.f1 .tay)
  | 0xA9 => some (.f2 .ldaImm)
  | 0xAA => some (.f1 .tax)
  | 0xAC => some (.f3 .ldyAbs)
  | 0xAD => some (.f3 .ldaAbs)
  | 0xAE => some (.f3 .ldxAbs)
  | 0xB1 => some (.f2 .ldaIzY)
  | 0xB4 => some (.f2 .ldyZpX)
  | 0xB5 => some (.f2 .ldaZpX)
  | 0xB6 => some (.f2 .ldxZpY)
  | 0xB9 => some (.f3 .ldaAbsY)
  | 0xBA => some (.f1 .tsx)
  | 0xBC => some (.f3 .ldyAbsX)
  | 0xBD => some (.f3 .ldaAbsX)
  | 0xBE => some (.f3 .ldxAbsY)
  | _ => none

/-- The 41 opcodes of R39, the default IMPLEMENTED_SET (R41), by family of the table. -/
def opcodes : List Byte :=
  [0xA9, 0xA5, 0xB5, 0xAD, 0xBD, 0xB9, 0xA1, 0xB1] ++
  [0xA2, 0xA6, 0xB6, 0xAE, 0xBE] ++
  [0xA0, 0xA4, 0xB4, 0xAC, 0xBC] ++
  [0x85, 0x95, 0x8D, 0x9D, 0x99, 0x81, 0x91] ++
  [0x86, 0x96, 0x8E] ++
  [0x84, 0x94, 0x8C] ++
  [0xAA, 0xA8, 0x8A, 0x98, 0xBA, 0x9A] ++
  [0x48, 0x08, 0x68, 0x28]

/-- Why no instruction is read from some bytes. -/
inductive DecodeError where
  /-- R42: the opcode is not of R39, or not in IMPLEMENTED_SET (R41). -/
  | unrecognizedOpcode (op : Byte)
  /-- The list of bytes ends before the instruction does; a fetch always supplies enough bytes. -/
  | truncated
  deriving DecidableEq, Repr

/-- What decoding answers. -/
inductive Decoded where
  /-- An instruction, and the bytes after it. -/
  | ok (i : Instr) (rest : List Byte)
  /-- No instruction, by name. -/
  | error (e : DecodeError)
  deriving DecidableEq, Repr

/-- Read one instruction from the front of a list of bytes, with the rest of the list, for a core that recognises the
opcodes of `set`. The opcode is looked up before any operand byte is looked at (R42). -/
def decode (set : List Byte) (bytes : List Byte) : Decoded :=
  match bytes with
  | [] => .error .truncated
  | op :: rest =>
    if set.contains op then
      match dispatch op with
      | none => .error (.unrecognizedOpcode op)
      | some (.f1 i) => .ok i rest
      | some (.f2 mk) =>
        match rest with
        | op8 :: rest => .ok (mk op8) rest
        | [] => .error .truncated
      | some (.f3 mk) =>
        match rest with
        | lo :: hi :: rest => .ok (mk (wordOfBytes lo hi)) rest
        | _ => .error .truncated
    else .error (.unrecognizedOpcode op)

/-- The three bytes of an instruction whose bits are `w`, numbered as spec/opcode_table.json numbers them, of which the
table gives `nbits`; every bit above those is zero. -/
def tableWordBytes (nbits w : Nat) : List Byte :=
  let v := w % 2 ^ nbits
  [BitVec.ofNat 8 v, BitVec.ofNat 8 (v / 256), BitVec.ofNat 8 (v / 65536)]

/-- What the decoder of a core with all 41 opcodes reads from a table word. -/
def decodeTableWord (nbits w : Nat) : Option Instr :=
  match decode opcodes (tableWordBytes nbits w) with
  | .ok i _ => some i
  | .error _ => none

/-! ### The encoder -/

/-- The opcode of each instruction (R39). -/
def opcode : Instr → Byte
  | .ldaImm _ => 0xA9
  | .ldaZp _ => 0xA5
  | .ldaZpX _ => 0xB5
  | .ldaAbs _ => 0xAD
  | .ldaAbsX _ => 0xBD
  | .ldaAbsY _ => 0xB9
  | .ldaIzX _ => 0xA1
  | .ldaIzY _ => 0xB1
  | .ldxImm _ => 0xA2
  | .ldxZp _ => 0xA6
  | .ldxZpY _ => 0xB6
  | .ldxAbs _ => 0xAE
  | .ldxAbsY _ => 0xBE
  | .ldyImm _ => 0xA0
  | .ldyZp _ => 0xA4
  | .ldyZpX _ => 0xB4
  | .ldyAbs _ => 0xAC
  | .ldyAbsX _ => 0xBC
  | .staZp _ => 0x85
  | .staZpX _ => 0x95
  | .staAbs _ => 0x8D
  | .staAbsX _ => 0x9D
  | .staAbsY _ => 0x99
  | .staIzX _ => 0x81
  | .staIzY _ => 0x91
  | .stxZp _ => 0x86
  | .stxZpY _ => 0x96
  | .stxAbs _ => 0x8E
  | .styZp _ => 0x84
  | .styZpX _ => 0x94
  | .styAbs _ => 0x8C
  | .tax => 0xAA
  | .tay => 0xA8
  | .txa => 0x8A
  | .tya => 0x98
  | .tsx => 0xBA
  | .txs => 0x9A
  | .pha => 0x48
  | .php => 0x08
  | .pla => 0x68
  | .plp => 0x28

/-- The operand bytes of each instruction (R37, R38): op8, or the low and the high byte of op16. -/
def operandBytes : Instr → List Byte
  | .tax | .tay | .txa | .tya | .tsx | .txs | .pha
  | .php | .pla | .plp => []
  | .ldaImm n | .ldaZp n | .ldaZpX n | .ldaIzX n | .ldaIzY n | .ldxImm n | .ldxZp n
  | .ldxZpY n | .ldyImm n | .ldyZp n | .ldyZpX n | .staZp n | .staZpX n | .staIzX n
  | .staIzY n | .stxZp n | .stxZpY n | .styZp n | .styZpX n => [n]
  | .ldaAbs w | .ldaAbsX w | .ldaAbsY w | .ldxAbs w | .ldxAbsY w | .ldyAbs w | .ldyAbsX w
  | .staAbs w | .staAbsX w | .staAbsY w | .stxAbs w | .styAbs w => [lowByte w, highByte w]

/-- The bytes of an instruction, the first at the lowest address (R36, R37). -/
def encode (i : Instr) : List Byte := opcode i :: operandBytes i

end Sys2Proof
end

