-- ==== Sys2Proof/Machine/State.lean ====
section
/-!
DEFINITION. Sys2Proof/Machine/State.lean: everything the spec gives the machine (10_state.md rules R7 to R18, 20_memory.md
rules R22 to R29), the reasons a step can stop, and the state after `create` (R96).
-/
namespace Sys2Proof.Machine

/-- The halt condition (R17). -/
inductive Halt where
  /-- R17: the value after `create`. -/
  | running
  /-- R17, R81: the core met the unrecognised opcode `op`; it never leaves this condition (R82). -/
  | halted (op : Byte)
  deriving DecidableEq, Repr

/-- The 65536 bytes of memory (R22) as a list of (address, byte) cells. Canonical form (`Memory.wf`): addresses strictly
rising and below 65536, no cell holding 0x00. An unlisted address reads 0x00, the initial content of R29. -/
abbrev Memory := List Host.Cell

/-- The canonical form from address `lo` upwards. -/
def Memory.wfFrom (lo : Nat) : Memory → Bool
  | [] => true
  | (a, v) :: rest => decide (lo ≤ a) && decide (a < 65536) && v != 0 && Memory.wfFrom (a + 1) rest

/-- The canonical form: equal memories are equal lists. -/
def Memory.wf (m : Memory) : Bool := Memory.wfFrom 0 m

/-- The architectural state (10_state.md) and the model arguments. -/
structure State where
  /-- Accumulator (R7). -/
  a : Byte
  /-- Index register X (R7). -/
  x : Byte
  /-- Index register Y (R7). -/
  y : Byte
  /-- Stack pointer into page 0x01 (R8). -/
  sp : Byte
  /-- Program counter: the address of the next opcode (R9). -/
  pc : Word
  /-- Status register; every value is legal (R10). -/
  p : Byte
  /-- Halt condition (R17). -/
  halt : Halt
  /-- Memory (R22). -/
  mem : Memory
  /-- The model arguments (00_scope.md section 4). DESIGN CHOICE (log 1): the model's own field, written by no step. -/
  params : Params
  deriving DecidableEq, Repr

/-- The faults of a step. -/
inductive Fault where
  /-- Raised by a step in the halted state (R20, R82), naming the unrecognised opcode: the step has no effect. Safe: the
  spec says the core executes nothing more (92 D11; log 7). -/
  | halted (op : Byte)
  deriving DecidableEq, Repr

/-- The refusals of a step. -/
inductive Refusal where
  /-- Raised by an arm of exec whose instruction has no meaning yet. Safe. No arm raises it: every row has its meaning. -/
  | notModelled (mnemonic : String)
  deriving DecidableEq, Repr

/-- What one step or one meaning answers. -/
abbrev Result := Host.Outcome State Fault Refusal

/-- `create(memory)` (R96) for a core with the arguments `par`: registers zeroed, SP = 0xFF, PC = 0x0000, running, the
memory as handed in. -/
def State.create (par : Params) (m : Memory) : State where
  a := 0x00
  x := 0x00
  y := 0x00
  sp := 0xFF
  pc := 0x0000
  p := 0x00
  halt := .running
  mem := m
  params := par

/-- The arguments State.reset takes: the spec's defaults for FLAG_MODE (log 4) and IMPLEMENTED_SET (log 5), free values for
the three arguments without a default (logs 2 and 3). -/
def defaultParams : Params where
  zBit := Config.flagPlacement.1
  nBit := Config.flagPlacement.2
  flagMode := .sticky
  zpPtrWrap := Config.zpPtrWrap
  implementedSet := opcodes

/-- The machine right after reset: `create` with the zero-initialised memory (R29, R96). -/
def State.reset : State := State.create defaultParams []

end Sys2Proof.Machine
end

