-- ==== Sys2Proof/Machine/Ops.lean ====
section
/-!
DEFINITION. Sys2Proof/Machine/Ops.lean: the named operations over registers and memory (R3, R7 to R10, R19), the end of a
handler (R60), the stack primitives (R74, R75), fetching an instruction (R33, R38, R45), and the one exception (R80 to R82).
There is no return from an exception (R87).
-/
namespace Sys2Proof.Machine

/-! ### One update per field -/

/-- `a` replaced by `v`. -/
def State.setA (v : Byte) (s : State) : State := { s with a := v }

/-- `x` replaced by `v`. -/
def State.setX (v : Byte) (s : State) : State := { s with x := v }

/-- `y` replaced by `v`. -/
def State.setY (v : Byte) (s : State) : State := { s with y := v }

/-- `sp` replaced by `v`. -/
def State.setSp (v : Byte) (s : State) : State := { s with sp := v }

/-- `pc` replaced by `v`. -/
def State.setPc (v : Word) (s : State) : State := { s with pc := v }

/-- `p` replaced by `v`. -/
def State.setP (v : Byte) (s : State) : State := { s with p := v }

/-- `halt` replaced by `v`. -/
def State.setHalt (v : Halt) (s : State) : State := { s with halt := v }

/-- `mem` replaced by `v`. -/
def State.setMem (v : Memory) (s : State) : State := { s with mem := v }

/-! ### Registers -/

/-- The 8-bit registers an instruction names as a source or destination (R7, R8). -/
inductive Reg where
  | a | x | y | sp
  deriving DecidableEq, Repr

/-- Register read. -/
def State.reg (s : State) : Reg → Byte
  | .a => s.a
  | .x => s.x
  | .y => s.y
  | .sp => s.sp

/-- Register write (`R <- v`); none is hardwired (R7). -/
def State.setReg (r : Reg) (v : Byte) (s : State) : State :=
  match r with
  | .a => s.setA v
  | .x => s.setX v
  | .y => s.setY v
  | .sp => s.setSp v

/-! ### Memory -/

/-- The byte at address `k`; an unlisted address holds 0x00 (R29). -/
def Memory.readNat : Memory → Nat → Byte
  | [], _ => 0
  | (a, v) :: rest, k => if a = k then v else Memory.readNat rest k

/-- `read(address) -> byte` (R3, R24): total, no effect. -/
def Memory.read (m : Memory) (addr : Word) : Byte := Memory.readNat m addr.toNat

/-- The memory without any cell at address `k`. -/
def Memory.erase : Memory → Nat → Memory
  | [], _ => []
  | (a, v) :: rest, k => if a = k then Memory.erase rest k else (a, v) :: Memory.erase rest k

/-- A cell put before the first cell of a higher or equal address. -/
def Memory.put : Memory → Nat → Byte → Memory
  | [], k, b => [(k, b)]
  | (a, v) :: rest, k, b => if a < k then (a, v) :: Memory.put rest k b else (k, b) :: (a, v) :: rest

/-- `write(address, byte)` (R3, R23): changes exactly the addressed byte, keeping the canonical form. -/
def Memory.write (m : Memory) (addr : Word) (v : Byte) : Memory :=
  let m := Memory.erase m addr.toNat
  if v = 0#8 then m else Memory.put m addr.toNat v

/-- `MemRead(addr, 1)` (R3, R19). -/
def readMem (s : State) (addr : Word) : Byte := Memory.read s.mem addr

/-- `MemWrite(addr, 1, v)` (R3, R19). -/
def writeMem (addr : Word) (v : Byte) (s : State) : State := s.setMem (Memory.write s.mem addr v)

/-- The host's preload of a program image (R97): bytes at consecutive addresses from `base`. -/
def Memory.preload (base : Word) : List Byte → Memory → Memory
  | [], m => m
  | b :: rest, m => Memory.preload (add16 base 1) rest (Memory.write m base b)

/-! ### Completion, stack, fetch -/

/-- The completion of a handler: PC moves past the instruction's `len` bytes. The resolver's advance to the last operand
byte (R48) and the handler's own `+1` (R60) are one addition here (R9, R18; DEDUCED, log 8). -/
def complete (len : Word) (s : State) : Result := .next (s.setPc (add16 s.pc len))

/-- The stack address SP designates, `0x0100 | zext_16(SP)` (R8). -/
def stackAddr (s : State) : Word := 0x0100#16 ||| zext16 s.sp

/-- `Push(v)` (R74): write, then decrement SP modulo 256, unchecked. -/
def push (v : Byte) (s : State) : State :=
  let s := writeMem (stackAddr s) v s
  s.setSp (sub8 s.sp 1)

/-- `Pull()` (R75): increment SP modulo 256, unchecked, then read; the byte stays in memory. -/
def pull (s : State) : Byte × State :=
  let s := s.setSp (add8 s.sp 1)
  (readMem s (stackAddr s), s)

/-- The bytes a fetch can need: the opcode at PC and the two after it (R33, R37). Reading one the instruction does not need
is unobservable, since reads have no effect (R23; DEDUCED, log 8). -/
def fetchBytes (s : State) : List Byte :=
  [readMem s s.pc, readMem s (add16 s.pc 1), readMem s (add16 s.pc 2)]

/-- The instruction at PC, `none` where its opcode is unrecognised on this core (R41, R42, R45). -/
def fetchInstr (s : State) : Option Instr :=
  match decode s.params.implementedSet (fetchBytes s) with
  | .ok i _ => some i
  | .error _ => none

/-! ### The exception -/

/-- Taking `UnrecognizedOpcode(op)`, the only exception (R5, R80), with `op` the byte at PC: halt entry (R81). The halt
condition becomes `halted(op)`; nothing else changes, PC keeps the address of the opcode, nothing is saved. -/
def raiseUnrecognizedOpcode (s : State) : State := s.setHalt (.halted (readMem s s.pc))

/-- A step in the halted state: no effect, the report `halted(op)` again (R20, R82). DESIGN CHOICE (log 7): the host's
fault outcome is that report. -/
def stepHalted (op : Byte) : Result := .fault (.halted op)

end Sys2Proof.Machine
end

