-- ==== Sys2Proof/Machine/Flags.lean ====
section
/-!
DEFINITION. Sys2Proof/Machine/Flags.lean: the flag-update primitive SetZN (R6, R14, R15 of 10_state.md), the only way but
PLP that P is written (R10).
-/
namespace Sys2Proof.Machine

/-- `bit(i)`: the byte with only bit i set (00_scope.md section 5). -/
def bit (i : Fin 8) : Byte := 1#8 <<< i.val

/-- The mask of a flag whose condition is `c`: `if c then bit(i) else 0`. -/
def flagMask (c : Bool) (i : Fin 8) : Byte := if c then bit i else 0

/-- P after SetZN(v) in FLAG_MODE = sticky (R14): Z and N are set when their condition holds, and never cleared. -/
def stickyZN (par : Params) (v p : Byte) : Byte :=
  p ||| flagMask (v == 0#8) par.zBit ||| flagMask v.msb par.nBit

/-- P after SetZN(v) in FLAG_MODE = parity (R15): Z and N become their conditions. -/
def parityZN (par : Params) (v p : Byte) : Byte :=
  (p &&& ~~~(bit par.zBit ||| bit par.nBit)) ||| flagMask (v == 0#8) par.zBit ||| flagMask v.msb par.nBit

/-- P after SetZN(v) on a core with the arguments `par`. -/
def statusZN (par : Params) (v p : Byte) : Byte :=
  match par.flagMode with
  | .sticky => stickyZN par v p
  | .parity => parityZN par v p

/-- `SetZN(v)` (R6, R14, R15). -/
def setZN (v : Byte) (s : State) : State := s.setP (statusZN s.params v s.p)

end Sys2Proof.Machine
end

