-- ==== Sys2Proof/Machine/Operands.lean ====
section
/-!
DEFINITION. Sys2Proof/Machine/Operands.lean: the addressing-mode resolvers (40_addressing_modes.md), each the effective
address of one mode from its operand and the state. The immediate mode's operand is the loaded value itself (R50; DEDUCED,
log 9), and the implied mode has no effective address (R49).
-/
namespace Sys2Proof.Machine

/-- `Read16(addr)` (R4): low byte at `addr`, high byte at the next address. -/
def read16 (s : State) (addr : Word) : Word := wordOfBytes (readMem s addr) (readMem s (add16 addr 1))

/-- Immediate (R50): the address of the operand byte, for an opcode at PC. -/
def eaImm (s : State) : Word := add16 s.pc 1

/-- Zero-page (R51). -/
def eaZp (op8 : Byte) : Word := zext16 op8

/-- Zero-page,X (R52): the sum is truncated to 8 bits. -/
def eaZpX (op8 : Byte) (s : State) : Word := zext16 (add8 op8 s.x)

/-- Zero-page,Y (R53): the sum is truncated to 8 bits. -/
def eaZpY (op8 : Byte) (s : State) : Word := zext16 (add8 op8 s.y)

/-- Absolute (R54). -/
def eaAbs (op16 : Word) : Word := op16

/-- Absolute,X (R55): a full 16-bit sum. -/
def eaAbsX (op16 : Word) (s : State) : Word := add16 op16 (zext16 s.x)

/-- Absolute,Y (R56): a full 16-bit sum. -/
def eaAbsY (op16 : Word) (s : State) : Word := add16 op16 (zext16 s.y)

/-- The address of a zero-page pointer's high byte (R57). The two settings of ZP_PTR_WRAP differ for the pointer 0xFF
only, so the setting is consulted there only. -/
def zpPtrHighAddr (w : ZpPtrWrap) (ptr : Byte) : Word :=
  if ptr = 0xFF then
    match w with
    | .zpWrap => 0x0000
    | .linear => 0x0100
  else add16 (zext16 ptr) 1

/-- `ZPRead16(p)` (R57): a little-endian pointer in the zero page. -/
def zpRead16 (ptr : Byte) (s : State) : Word :=
  wordOfBytes (readMem s (zext16 ptr)) (readMem s (zpPtrHighAddr s.params.zpPtrWrap ptr))

/-- Indexed-indirect (R58): the pointer at (op8 + X) mod 256 is the effective address. -/
def eaIzX (op8 : Byte) (s : State) : Word := zpRead16 (add8 op8 s.x) s

/-- Indirect-indexed (R59): the pointer at op8, plus Y as a full 16-bit sum. -/
def eaIzY (op8 : Byte) (s : State) : Word := add16 (zpRead16 op8 s) (zext16 s.y)

end Sys2Proof.Machine
end

