-- ==== Sys2Proof/Machine/LoadStore.lean ====
section
/-!
DEFINITION. Sys2Proof/Machine/LoadStore.lean: LDA, LDX, LDY, STA, STX and STY (41_load_store.md, R61 to R67), one meaning
per opcode over three shared handlers. Each cites its instruction rule and the rule of its mode.
-/
namespace Sys2Proof.Machine

/-- The handler of a load whose value is `v` (R61 to R63): the register takes `v` exactly, SetZN(v), completion. -/
def loadValue (r : Reg) (v : Byte) (len : Word) (s : State) : Result :=
  complete len (setZN v (s.setReg r v))

/-- The handler of a load from the effective address `ea` (R61 to R63). -/
def loadFrom (r : Reg) (ea : Word) (len : Word) (s : State) : Result :=
  loadValue r (readMem s ea) len s

/-- The handler of a store to the effective address `ea` (R64 to R66): the register's byte, no flag effect, completion. -/
def storeTo (r : Reg) (ea : Word) (len : Word) (s : State) : Result :=
  complete len (writeMem ea (s.reg r) s)

/-- LDA, opcode 0xA9 (R61, R50). -/
def execLdaImm (op8 : Byte) (s : State) : Result := loadValue .a op8 2 s

/-- LDA, opcode 0xA5 (R61, R51). -/
def execLdaZp (op8 : Byte) (s : State) : Result := loadFrom .a (eaZp op8) 2 s

/-- LDA, opcode 0xB5 (R61, R52). -/
def execLdaZpX (op8 : Byte) (s : State) : Result := loadFrom .a (eaZpX op8 s) 2 s

/-- LDA, opcode 0xAD (R61, R54). -/
def execLdaAbs (op16 : Word) (s : State) : Result := loadFrom .a (eaAbs op16) 3 s

/-- LDA, opcode 0xBD (R61, R55). -/
def execLdaAbsX (op16 : Word) (s : State) : Result := loadFrom .a (eaAbsX op16 s) 3 s

/-- LDA, opcode 0xB9 (R61, R56). -/
def execLdaAbsY (op16 : Word) (s : State) : Result := loadFrom .a (eaAbsY op16 s) 3 s

/-- LDA, opcode 0xA1 (R61, R58). -/
def execLdaIzX (op8 : Byte) (s : State) : Result := loadFrom .a (eaIzX op8 s) 2 s

/-- LDA, opcode 0xB1 (R61, R59). -/
def execLdaIzY (op8 : Byte) (s : State) : Result := loadFrom .a (eaIzY op8 s) 2 s

/-- LDX, opcode 0xA2 (R62, R50). -/
def execLdxImm (op8 : Byte) (s : State) : Result := loadValue .x op8 2 s

/-- LDX, opcode 0xA6 (R62, R51). -/
def execLdxZp (op8 : Byte) (s : State) : Result := loadFrom .x (eaZp op8) 2 s

/-- LDX, opcode 0xB6 (R62, R53). -/
def execLdxZpY (op8 : Byte) (s : State) : Result := loadFrom .x (eaZpY op8 s) 2 s

/-- LDX, opcode 0xAE (R62, R54). -/
def execLdxAbs (op16 : Word) (s : State) : Result := loadFrom .x (eaAbs op16) 3 s

/-- LDX, opcode 0xBE (R62, R56). -/
def execLdxAbsY (op16 : Word) (s : State) : Result := loadFrom .x (eaAbsY op16 s) 3 s

/-- LDY, opcode 0xA0 (R63, R50). -/
def execLdyImm (op8 : Byte) (s : State) : Result := loadValue .y op8 2 s

/-- LDY, opcode 0xA4 (R63, R51). -/
def execLdyZp (op8 : Byte) (s : State) : Result := loadFrom .y (eaZp op8) 2 s

/-- LDY, opcode 0xB4 (R63, R52). -/
def execLdyZpX (op8 : Byte) (s : State) : Result := loadFrom .y (eaZpX op8 s) 2 s

/-- LDY, opcode 0xAC (R63, R54). -/
def execLdyAbs (op16 : Word) (s : State) : Result := loadFrom .y (eaAbs op16) 3 s

/-- LDY, opcode 0xBC (R63, R55). -/
def execLdyAbsX (op16 : Word) (s : State) : Result := loadFrom .y (eaAbsX op16 s) 3 s

/-- STA, opcode 0x85 (R64, R51). -/
def execStaZp (op8 : Byte) (s : State) : Result := storeTo .a (eaZp op8) 2 s

/-- STA, opcode 0x95 (R64, R52). -/
def execStaZpX (op8 : Byte) (s : State) : Result := storeTo .a (eaZpX op8 s) 2 s

/-- STA, opcode 0x8D (R64, R54). -/
def execStaAbs (op16 : Word) (s : State) : Result := storeTo .a (eaAbs op16) 3 s

/-- STA, opcode 0x9D (R64, R55). -/
def execStaAbsX (op16 : Word) (s : State) : Result := storeTo .a (eaAbsX op16 s) 3 s

/-- STA, opcode 0x99 (R64, R56). -/
def execStaAbsY (op16 : Word) (s : State) : Result := storeTo .a (eaAbsY op16 s) 3 s

/-- STA, opcode 0x81 (R64, R58). -/
def execStaIzX (op8 : Byte) (s : State) : Result := storeTo .a (eaIzX op8 s) 2 s

/-- STA, opcode 0x91 (R64, R59). -/
def execStaIzY (op8 : Byte) (s : State) : Result := storeTo .a (eaIzY op8 s) 2 s

/-- STX, opcode 0x86 (R65, R51). -/
def execStxZp (op8 : Byte) (s : State) : Result := storeTo .x (eaZp op8) 2 s

/-- STX, opcode 0x96 (R65, R53). -/
def execStxZpY (op8 : Byte) (s : State) : Result := storeTo .x (eaZpY op8 s) 2 s

/-- STX, opcode 0x8E (R65, R54). -/
def execStxAbs (op16 : Word) (s : State) : Result := storeTo .x (eaAbs op16) 3 s

/-- STY, opcode 0x84 (R66, R51). -/
def execStyZp (op8 : Byte) (s : State) : Result := storeTo .y (eaZp op8) 2 s

/-- STY, opcode 0x94 (R66, R52). -/
def execStyZpX (op8 : Byte) (s : State) : Result := storeTo .y (eaZpX op8 s) 2 s

/-- STY, opcode 0x8C (R66, R54). -/
def execStyAbs (op16 : Word) (s : State) : Result := storeTo .y (eaAbs op16) 3 s

end Sys2Proof.Machine
end

