-- ==== Sys2Proof/Machine/Stack.lean ====
section
/-!
DEFINITION. Sys2Proof/Machine/Stack.lean: PHA, PHP, PLA and PLP (43_stack.md, R76 to R79) over the primitives Push and Pull
of Machine/Ops.lean (R74, R75): implied mode, one byte.
-/
namespace Sys2Proof.Machine

/-- PHA, opcode 0x48 (R76). -/
def execPha (s : State) : Result := complete 1 (push s.a s)

/-- PHP, opcode 0x08 (R77): all 8 bits of P as they are. -/
def execPhp (s : State) : Result := complete 1 (push s.p s)

/-- PLA, opcode 0x68 (R78). -/
def execPla (s : State) : Result :=
  let (v, s) := pull s
  complete 1 (setZN v (s.setA v))

/-- PLP, opcode 0x28 (R79): all 8 bits of P replaced, SetZN not called. -/
def execPlp (s : State) : Result :=
  let (v, s) := pull s
  complete 1 (s.setP v)

end Sys2Proof.Machine
end

