-- ==== Sys2Proof/Machine/Transfer.lean ====
section
/-!
DEFINITION. Sys2Proof/Machine/Transfer.lean: TAX, TAY, TXA, TYA, TSX and TXS (42_transfer.md, R68 to R73): implied mode,
one byte, no memory access.
-/
namespace Sys2Proof.Machine

/-- A transfer that sets the flags from the destination's new value (R68 to R72). -/
def transfer (src dst : Reg) (s : State) : Result :=
  complete 1 (setZN (s.reg src) (s.setReg dst (s.reg src)))

/-- A transfer without flag effect (R73). -/
def transferQuiet (src dst : Reg) (s : State) : Result :=
  complete 1 (s.setReg dst (s.reg src))

/-- TAX, opcode 0xAA (R68). -/
def execTax (s : State) : Result := transfer .a .x s

/-- TAY, opcode 0xA8 (R69). -/
def execTay (s : State) : Result := transfer .a .y s

/-- TXA, opcode 0x8A (R70). -/
def execTxa (s : State) : Result := transfer .x .a s

/-- TYA, opcode 0x98 (R71). -/
def execTya (s : State) : Result := transfer .y .a s

/-- TSX, opcode 0xBA (R72). -/
def execTsx (s : State) : Result := transfer .sp .x s

/-- TXS, opcode 0x9A (R73). -/
def execTxs (s : State) : Result := transferQuiet .x .sp s

end Sys2Proof.Machine
end

