-- ==== Sys2Proof/Machine/Dispatch.lean ====
section
/-!
DEFINITION. Sys2Proof/Machine/Dispatch.lean: one arm per instruction, each one call of its meaning (R44, R45).
-/
namespace Sys2Proof.Machine

def exec (i : Instr) (s : State) : Host.Outcome State Fault Refusal :=
  match i with
  | .ldaImm op8 => Sys2Proof.Machine.execLdaImm op8 s
  | .ldaZp op8 => Sys2Proof.Machine.execLdaZp op8 s
  | .ldaZpX op8 => Sys2Proof.Machine.execLdaZpX op8 s
  | .ldaAbs op16 => Sys2Proof.Machine.execLdaAbs op16 s
  | .ldaAbsX op16 => Sys2Proof.Machine.execLdaAbsX op16 s
  | .ldaAbsY op16 => Sys2Proof.Machine.execLdaAbsY op16 s
  | .ldaIzX op8 => Sys2Proof.Machine.execLdaIzX op8 s
  | .ldaIzY op8 => Sys2Proof.Machine.execLdaIzY op8 s
  | .ldxImm op8 => Sys2Proof.Machine.execLdxImm op8 s
  | .ldxZp op8 => Sys2Proof.Machine.execLdxZp op8 s
  | .ldxZpY op8 => Sys2Proof.Machine.execLdxZpY op8 s
  | .ldxAbs op16 => Sys2Proof.Machine.execLdxAbs op16 s
  | .ldxAbsY op16 => Sys2Proof.Machine.execLdxAbsY op16 s
  | .ldyImm op8 => Sys2Proof.Machine.execLdyImm op8 s
  | .ldyZp op8 => Sys2Proof.Machine.execLdyZp op8 s
  | .ldyZpX op8 => Sys2Proof.Machine.execLdyZpX op8 s
  | .ldyAbs op16 => Sys2Proof.Machine.execLdyAbs op16 s
  | .ldyAbsX op16 => Sys2Proof.Machine.execLdyAbsX op16 s
  | .staZp op8 => Sys2Proof.Machine.execStaZp op8 s
  | .staZpX op8 => Sys2Proof.Machine.execStaZpX op8 s
  | .staAbs op16 => Sys2Proof.Machine.execStaAbs op16 s
  | .staAbsX op16 => Sys2Proof.Machine.execStaAbsX op16 s
  | .staAbsY op16 => Sys2Proof.Machine.execStaAbsY op16 s
  | .staIzX op8 => Sys2Proof.Machine.execStaIzX op8 s
  | .staIzY op8 => Sys2Proof.Machine.execStaIzY op8 s
  | .stxZp op8 => Sys2Proof.Machine.execStxZp op8 s
  | .stxZpY op8 => Sys2Proof.Machine.execStxZpY op8 s
  | .stxAbs op16 => Sys2Proof.Machine.execStxAbs op16 s
  | .styZp op8 => Sys2Proof.Machine.execStyZp op8 s
  | .styZpX op8 => Sys2Proof.Machine.execStyZpX op8 s
  | .styAbs op16 => Sys2Proof.Machine.execStyAbs op16 s
  | .tax => Sys2Proof.Machine.execTax s
  | .tay => Sys2Proof.Machine.execTay s
  | .txa => Sys2Proof.Machine.execTxa s
  | .tya => Sys2Proof.Machine.execTya s
  | .tsx => Sys2Proof.Machine.execTsx s
  | .txs => Sys2Proof.Machine.execTxs s
  | .pha => Sys2Proof.Machine.execPha s
  | .php => Sys2Proof.Machine.execPhp s
  | .pla => Sys2Proof.Machine.execPla s
  | .plp => Sys2Proof.Machine.execPlp s

end Sys2Proof.Machine
end

