-- ==== Sys2Proof/Machine/Step.lean ====
section
/-!
DEFINITION. Sys2Proof/Machine/Step.lean: one fetch-decode-execute step (R45 of 30_encoding.md), and the placing of one
instruction where the next step fetches.
-/
namespace Sys2Proof.Machine

/-- `step()` (R20, R45): from the running condition the instruction at PC runs, or its unrecognised opcode halts the core;
from the halted condition nothing happens but the report. -/
def step (s : State) : Host.Outcome State Fault Refusal :=
  match s.halt with
  | .halted op => stepHalted op
  | .running =>
    match fetchInstr s with
    | some i => exec i s
    | none => .next (raiseUnrecognizedOpcode s)

/-- `s` with the instruction of table word `w` stored at PC and the core running, so that the next step fetches it
(log 10: it stands for the host's preload of R97). -/
def State.withFetchWord (s : State) (nbits w : Nat) : State :=
  (s.setHalt .running).setMem (Memory.preload s.pc (tableWordBytes nbits w) s.mem)

end Sys2Proof.Machine
end

