-- ==== Sys2Proof/WellFormed.lean ====
section
/-!
DEFINITION. Sys2Proof/WellFormed.lean: what a well-formed instruction and well-formed model arguments are. Operand bytes
and words are of their exact width by type, so what is left to check is IMPLEMENTED_SET (R41) and the domains of the
arguments (92_eei_decisions.md, closing table).
-/
namespace Sys2Proof

/-- An instruction exists on a core when its opcode is in the core's IMPLEMENTED_SET (R41). -/
def Instr.wellFormed (set : List Byte) (i : Instr) : Bool := set.contains (opcode i)

/-- IMPLEMENTED_SET is a subset of the 41 opcodes of R39 (R41). -/
def Params.setWellFormed (par : Params) : Bool := par.implementedSet.all fun op => opcodes.contains op

/-- The arguments lie in their domains: the flag places are admissible (R12; 92 D3) and the set is a subset (R41). -/
def Params.wellFormed (par : Params) : Bool :=
  admissiblePlacement par.zBit par.nBit && par.setWellFormed

end Sys2Proof
end

