-- ==== Sys2Proof/Safety.lean ====
section
/-!
DEFINITION. Sys2Proof/Safety.lean: the terms claims are stated in: what the host sees of a step (R20), the regions of the
address space (R28), and the invariant of the machine.
-/
namespace Sys2Proof.Machine

/-- What `step()` returns (R20). -/
inductive StepReport where
  /-- The instruction executed. -/
  | completed
  /-- The core is halted by the opcode `op`. -/
  | halted (op : Byte)
  deriving DecidableEq, Repr

/-- The report of a step, from what the model's step answers (R20; log 7). A refusal, which no step answers, has none. -/
def reportOf : Result → Option StepReport
  | .next t =>
    match t.halt with
    | .running => some .completed
    | .halted op => some (.halted op)
  | .fault (.halted op) => some (.halted op)
  | .refused _ => none

/-- The state after a step from `s`: a fault leaves the state as it was (R82; log 7). -/
def stateAfter (s : State) : Result → State
  | .next t => t
  | .fault _ => s
  | .refused _ => s

/-- `k` calls of `step()`, each from the state the last one left, up to the first that leaves no next state (R30, R99; 92
D17: a run is a sequence of steps from a start state). -/
def run : Nat → State → Result
  | 0, s => .next s
  | k + 1, s =>
    match step s with
    | .next t => run k t
    | .fault r => .fault r
    | .refused r => .refused r

/-- The two regions the core fixes, and the rest (R28). -/
inductive Region where
  | zeroPage | stackPage | general
  deriving DecidableEq, Repr

/-- The region of an address (R28). -/
def regionOf (addr : Word) : Region :=
  if addr.toNat < 0x100 then .zeroPage else if addr.toNat < 0x200 then .stackPage else .general

/-- The invariant of the machine: memory in canonical form (R22, R29) and the arguments in their domains (R12, R41). -/
def State.Inv (s : State) : Prop := s.mem.wf = true ∧ s.params.wellFormed = true

end Sys2Proof.Machine
end

