-- ==== Sys2Proof/Certificates/Slice0/Obligations.lean ====
section
/-!
DEFINITION. Sys2Proof/Certificates/Slice0/Obligations.lean: the statements for the provers, each formalising rules of
spec/ (its docstring names them). Opcodes and addresses stand here as the numbers the spec gives, not as the model's
functions, wherever the rule gives a number. `add16`'s wrap at 0xFFFF is the spec's own decision (92 D7, D8; log 6), the
opcode values are its D1 (log 5), and the form of a halt is its D11 (log 7).
-/
open Sys2Proof Sys2Proof.Machine

namespace Sys2Proof.Claims

/-! ### Vocabulary -/

/-- The byte at address `k`. -/
def byteAt (s : State) (k : Nat) : Byte := Memory.read s.mem (BitVec.ofNat 16 k)

/-- The address of the high byte of a zero-page pointer at `p` (R57). -/
def pointerHighAt (w : ZpPtrWrap) (p : Nat) : Nat :=
  match w with
  | .zpWrap => (p + 1) % 256
  | .linear => p + 1

/-- The zero-page pointer at `p`, as a number (R57). -/
def pointerAt (s : State) (p : Nat) : Nat :=
  (byteAt s p).toNat + 256 * (byteAt s (pointerHighAt s.params.zpPtrWrap p)).toNat

/-- The opcode byte at PC, as a number. -/
def opAt (s : State) : Nat := (Memory.read s.mem s.pc).toNat

/-- R7: LDA, TXA, TYA and PLA. -/
def opsWritingA : List Nat :=
  [0xA9, 0xA5, 0xB5, 0xAD, 0xBD, 0xB9, 0xA1, 0xB1] ++
  [0x8A, 0x98, 0x68]

/-- R7: LDX, TAX and TSX. -/
def opsWritingX : List Nat :=
  [0xA2, 0xA6, 0xB6, 0xAE, 0xBE] ++
  [0xAA, 0xBA]

/-- R7: LDY and TAY. -/
def opsWritingY : List Nat :=
  [0xA0, 0xA4, 0xB4, 0xAC, 0xBC] ++
  [0xA8]

/-- R8: TXS, PHA, PHP, PLA and PLP. -/
def opsWritingSp : List Nat :=
  [0x9A, 0x48, 0x08, 0x68, 0x28]

/-- R27: STA, STX, STY, PHA and PHP. -/
def opsStoring : List Nat :=
  [0x85, 0x95, 0x8D, 0x9D, 0x99, 0x81, 0x91] ++
  [0x86, 0x96, 0x8E] ++
  [0x84, 0x94, 0x8C] ++
  [0x48, 0x08]

/-- 95_test_vectors.md H7: the opcodes of one-byte instructions. -/
def opsOfLength1 : List Nat :=
  [0x08, 0x28, 0x48, 0x68, 0x8A, 0x98, 0x9A, 0xA8, 0xAA, 0xBA]

/-- H7: the opcodes of two-byte instructions. -/
def opsOfLength2 : List Nat :=
  [0x81, 0x84, 0x85, 0x86, 0x91, 0x94, 0x95, 0x96, 0xA0, 0xA1] ++
  [0xA2, 0xA4, 0xA5, 0xA6, 0xA9, 0xB1, 0xB4, 0xB5, 0xB6]

/-- H7: the opcodes of three-byte instructions. -/
def opsOfLength3 : List Nat :=
  [0x8C, 0x8D, 0x8E, 0x99, 0x9D, 0xAC, 0xAD, 0xAE, 0xB9, 0xBC, 0xBD, 0xBE]

/-- The 41 recognised opcodes (R39). -/
def opsRecognised : List Nat := opsOfLength1 ++ opsOfLength2 ++ opsOfLength3

/-- The length in bytes of a recognised opcode's instruction (H7; R36). -/
def lengthOfOpcode (op : Nat) : Nat :=
  if op ∈ opsOfLength1 then 1 else if op ∈ opsOfLength2 then 2 else 3

/-- A row of the table of R39. -/
def row (op : Nat) (m : Mnemonic) (mode : Mode) (length : Nat) : Nat × Mnemonic × Mode × Nat := (op, m, mode, length)

/-- The table of R39: opcode, mnemonic, mode, length. -/
def tableR39 : List (Nat × Mnemonic × Mode × Nat) :=
  [row 0x08 .php .imp 1, row 0x28 .plp .imp 1, row 0x48 .pha .imp 1, row 0x68 .pla .imp 1] ++
  [row 0x81 .sta .izx 2, row 0x84 .sty .zp 2, row 0x85 .sta .zp 2, row 0x86 .stx .zp 2] ++
  [row 0x8A .txa .imp 1, row 0x8C .sty .abs 3, row 0x8D .sta .abs 3, row 0x8E .stx .abs 3] ++
  [row 0x91 .sta .izy 2, row 0x94 .sty .zpx 2, row 0x95 .sta .zpx 2, row 0x96 .stx .zpy 2] ++
  [row 0x98 .tya .imp 1, row 0x99 .sta .aby 3, row 0x9A .txs .imp 1, row 0x9D .sta .abx 3] ++
  [row 0xA0 .ldy .imm 2, row 0xA1 .lda .izx 2, row 0xA2 .ldx .imm 2, row 0xA4 .ldy .zp 2] ++
  [row 0xA5 .lda .zp 2, row 0xA6 .ldx .zp 2, row 0xA8 .tay .imp 1, row 0xA9 .lda .imm 2] ++
  [row 0xAA .tax .imp 1, row 0xAC .ldy .abs 3, row 0xAD .lda .abs 3, row 0xAE .ldx .abs 3] ++
  [row 0xB1 .lda .izy 2, row 0xB4 .ldy .zpx 2, row 0xB5 .lda .zpx 2, row 0xB6 .ldx .zpy 2] ++
  [row 0xB9 .lda .aby 3, row 0xBA .tsx .imp 1, row 0xBC .ldy .abx 3, row 0xBD .lda .abx 3] ++
  [row 0xBE .ldx .aby 3]

/-- Bit k of what SetZN(v) makes of P, the positions of Z and N and the mode being the core's arguments (R11 to R15): the
condition of Z is v = 0, the condition of N is bit 7 of v, that is v at least 128. -/
def zn (par : Params) (v p : Byte) (k : Fin 8) : Bool :=
  let condition := (k == par.zBit && v.toNat == 0) || (k == par.nBit && decide (128 ≤ v.toNat))
  match par.flagMode with
  | .sticky => p.getLsbD k.val || condition
  | .parity => if k = par.zBit ∨ k = par.nBit then condition else p.getLsbD k.val

/-- The status after SetZN(v), bit by bit. -/
def FlagsFrom (par : Params) (v p p' : Byte) : Prop := ∀ k : Fin 8, p'.getLsbD k.val = zn par v p k

/-- All of memory reads the same in both states. -/
def SameMemory (s t : State) : Prop := ∀ b : Word, Memory.read t.mem b = Memory.read s.mem b

/-- Memory reads the same in both states at every address but `ea`, where `t` holds `v`. -/
def StoredByte (ea : Word) (v : Byte) (s t : State) : Prop :=
  Memory.read t.mem ea = v ∧ ∀ b : Word, b ≠ ea → Memory.read t.mem b = Memory.read s.mem b

/-- What every completed instruction leaves alone: the halt condition and the model arguments. -/
def SameMachine (s t : State) : Prop := t.halt = s.halt ∧ t.params = s.params

/-- The instruction completes, `r` takes `v`, SetZN(v), PC advances by `len`, nothing else changes. -/
def Loads (i : Instr) (r : Reg) (v : Byte) (len : Word) (s : State) : Prop :=
  ∃ t, exec i s = .next t ∧ t.reg r = v ∧ (∀ q, q ≠ r → t.reg q = s.reg q) ∧ FlagsFrom s.params v s.p t.p ∧
    t.pc = add16 s.pc len ∧ SameMemory s t ∧ SameMachine s t

/-- The instruction completes, the byte at `ea` becomes `v`, PC advances by `len`, nothing else changes. -/
def Stores (i : Instr) (ea : Word) (v : Byte) (len : Word) (s : State) : Prop :=
  ∃ t, exec i s = .next t ∧ StoredByte ea v s t ∧ (∀ q, t.reg q = s.reg q) ∧ t.p = s.p ∧
    t.pc = add16 s.pc len ∧ SameMachine s t

/-- The instruction completes, `v` is pushed (R74: written at 0x0100|SP, then SP decremented), PC advances by 1, nothing
else changes. -/
def Pushes (i : Instr) (v : Byte) (s : State) : Prop :=
  ∃ t, exec i s = .next t ∧ StoredByte (stackAddr s) v s t ∧ t.sp = sub8 s.sp 1 ∧
    (∀ q, q ≠ .sp → t.reg q = s.reg q) ∧ t.p = s.p ∧ t.pc = add16 s.pc 1 ∧ SameMachine s t

/-- Where an instruction stores and the byte it stores: R64 to R66 with the address of the mode, R76 and R77 with R74;
`none` for an instruction that stores nothing (R27). -/
def storeOf (i : Instr) (s : State) : Option (Word × Byte) :=
  match i with
  | .staZp n => some (eaZp n, s.a)
  | .staZpX n => some (eaZpX n s, s.a)
  | .staAbs w => some (eaAbs w, s.a)
  | .staAbsX w => some (eaAbsX w s, s.a)
  | .staAbsY w => some (eaAbsY w s, s.a)
  | .staIzX n => some (eaIzX n s, s.a)
  | .staIzY n => some (eaIzY n s, s.a)
  | .stxZp n => some (eaZp n, s.x)
  | .stxZpY n => some (eaZpY n s, s.x)
  | .stxAbs w => some (eaAbs w, s.x)
  | .styZp n => some (eaZp n, s.y)
  | .styZpX n => some (eaZpX n s, s.y)
  | .styAbs w => some (eaAbs w, s.y)
  | .pha => some (stackAddr s, s.a)
  | .php => some (stackAddr s, s.p)
  | .ldaImm _ | .ldaZp _ | .ldaZpX _ | .ldaAbs _ | .ldaAbsX _ | .ldaAbsY _ | .ldaIzX _ | .ldaIzY _ => none
  | .ldxImm _ | .ldxZp _ | .ldxZpY _ | .ldxAbs _ | .ldxAbsY _ => none
  | .ldyImm _ | .ldyZp _ | .ldyZpX _ | .ldyAbs _ | .ldyAbsX _ => none
  | .tax | .tay | .txa | .tya | .tsx | .txs | .pla | .plp => none

/-- The byte at `b` once `v` is stored at `ea`. -/
def byteAfterStore (ea : Word) (v : Byte) (s : State) (b : Word) : Byte := if b = ea then v else Memory.read s.mem b

/-- The bytes a fetch at `pc` reads once `v` is stored at `ea`. -/
def bytesAfterStore (ea : Word) (v : Byte) (s : State) (pc : Word) : List Byte :=
  [byteAfterStore ea v s pc, byteAfterStore ea v s (add16 pc 1), byteAfterStore ea v s (add16 pc 2)]

/-- Bytes pushed one after the other, the head first. -/
def pushAll : List Byte → State → State
  | [], s => s
  | v :: vs, s => pushAll vs (push v s)

/-- `n` bytes pulled one after the other, the first pulled at the head. -/
def pullAll : Nat → State → List Byte × State
  | 0, s => ([], s)
  | n + 1, s =>
    let (v, s1) := pull s
    let (vs, s2) := pullAll n s1
    (v :: vs, s2)

/-- The field `aaa` of the opcode (R40). -/
def fieldA : Mnemonic → Nat
  | .php => 0 | .plp => 1 | .pha => 2 | .pla => 3
  | .sta | .stx | .sty | .txa | .txs | .tya => 4
  | .lda | .ldx | .ldy | .tax | .tsx | .tay => 5

/-- The field `bbb` of the opcode (R40): the mode, or the implied instruction. -/
def fieldB (m : Mnemonic) (mode : Mode) : Nat :=
  match mode with
  | .imp => if m = .txs ∨ m = .tsx ∨ m = .tya then 6 else 2
  | .imm => if m = .lda then 2 else 0
  | .izx => 0
  | .zp => 1
  | .abs => 3
  | .izy => 4
  | .zpx | .zpy => 5
  | .aby => if m = .ldx then 7 else 6
  | .abx => 7

/-- The field `cc` of the opcode (R40). -/
def fieldC : Mnemonic → Nat
  | .lda | .sta => 1
  | .ldx | .stx | .txa | .tax | .txs | .tsx => 2
  | .ldy | .sty | .tay | .tya | .php | .plp | .pha | .pla => 0

end Sys2Proof.Claims

open Sys2Proof.Claims

/-! ### Reset and the invariant -/

/-- R96, R29. The row 'halt condition' of R96 is the spec's own decision D11 (log 7). -/
def Obligations.CreateLeavesTheResetState : Prop :=
  ∀ (par : Params) (m : Memory),
    (∀ q : Reg, (State.create par m).reg q = if q = .sp then 0xFF else 0x00) ∧
    (State.create par m).pc = 0x0000 ∧ (State.create par m).p = 0x00 ∧ (State.create par m).halt = .running ∧
    (State.create par m).mem = m ∧ (State.create par m).params = par ∧
    (∃ par', State.reset = State.create par' []) ∧ ∀ b : Word, Memory.read State.reset.mem b = 0x00

/-- R12, R29, R41. State.Inv is the model's (logs 1, 2, 11). -/
def Obligations.ResetSatisfiesTheInvariant : Prop :=
  State.reset.Inv ∧
    ∀ (par : Params) (m : Memory), par.wellFormed = true → m.wf = true → (State.create par m).Inv

/-- Derived from R12, R22, R29, R41: an invariant over every state, not only states a run reaches. State.Inv is the
model's: the canonical list form of memory is its choice (DESIGN CHOICE, log 11), and so is the field of State that carries
the arguments (DESIGN CHOICE, log 1). -/
def Obligations.StepKeepsTheInvariant : Prop :=
  ∀ s t : State, s.Inv → step s = .next t → t.Inv ∧ t.params = s.params

/-- Derived from R30, R99: steps follow each other, each from the state the last one left. State.Inv is the model's: the
canonical list form of memory (DESIGN CHOICE, log 11) and the field that carries the arguments (DESIGN CHOICE, log 1). -/
def Obligations.RunKeepsTheInvariant : Prop :=
  ∀ (k : Nat) (s t : State), s.Inv → run k s = .next t → t.Inv ∧ t.params = s.params

/-- R22, R23: memory is its 65536 bytes; the canonical list form is the model's (log 11). -/
def Obligations.CanonicalMemoriesAreEqualWhenTheyReadEqual : Prop :=
  ∀ m m' : Memory, m.wf = true → m'.wf = true →
    (∀ b : Word, Memory.read m b = Memory.read m' b) → m = m'

/-! ### Encoding -/

/-- R36, R37, R38, R41. -/
def Obligations.DecodeOfEncodeIsTheInstruction : Prop :=
  ∀ (set : List Byte) (i : Instr) (rest : List Byte), i.wellFormed set = true →
    decode set (encode i ++ rest) = .ok i rest

/-- R36, R37, R38, R41: each word has one meaning. -/
def Obligations.DecodedBytesAreTheEncoding : Prop :=
  ∀ (set bytes rest : List Byte) (i : Instr), decode set bytes = .ok i rest →
    i.wellFormed set = true ∧ bytes = encode i ++ rest

/-- R39, R41, R42, R43. The values are the spec's decision D1 (log 5). -/
def Obligations.RecognisedOpcodesAreTheFortyOne : Prop :=
  ∀ (set : List Byte) (op lo hi : Byte),
    ((∃ i rest, decode set [op, lo, hi] = .ok i rest) ↔ set.contains op = true ∧ op.toNat ∈ opsRecognised) ∧
    (¬(set.contains op = true ∧ op.toNat ∈ opsRecognised) →
      decode set [op, lo, hi] = .error (.unrecognizedOpcode op))

/-- R39, R44, R37. The values are the spec's decision D1 (log 5). -/
def Obligations.OpcodeTableIsThatOfR39 : Prop :=
  (∀ (op lo hi : Byte) (i : Instr) (rest : List Byte), decode opcodes [op, lo, hi] = .ok i rest →
    (op.toNat, i.mnemonic, i.mode, i.length) ∈ tableR39) ∧
  ∀ i : Instr, ((opcode i).toNat, i.mnemonic, i.mode, (encode i).length) ∈ tableR39

/-- R39, R46, E1, E3, H1 to H3: a sanity statement on few words. -/
def Obligations.WordsWrittenOutDecode : Prop :=
  decode opcodes [0b10101001, 0x42] = .ok (.ldaImm 0x42) [] ∧
  decode opcodes [0b10100001, 0x42] = .ok (.ldaIzX 0x42) [] ∧
  decode opcodes [0b10011101, 0x69, 0x35] = .ok (.staAbsX 0x3569) [] ∧
  decode opcodes [0b10110110, 0x42] = .ok (.ldxZpY 0x42) [] ∧
  decode opcodes [0b10000100, 0x42] = .ok (.styZp 0x42) [] ∧
  decode opcodes [0b10111010] = .ok .tsx [] ∧
  decode opcodes [0b01001000] = .ok .pha [] ∧
  decode opcodes [0b00101000] = .ok .plp [] ∧
  decode opcodes [0b00000000] = .error (.unrecognizedOpcode 0x00) ∧
  decode opcodes [0b11101010] = .error (.unrecognizedOpcode 0xEA) ∧
  decode opcodes [0b10001001, 0x42] = .error (.unrecognizedOpcode 0x89)

/-- R40, informative and from general knowledge (93 G3; log 5). -/
def Obligations.OpcodeByteHasTheFieldsOfR40 : Prop :=
  ∀ i : Instr,
    (opcode i).toNat = 32 * fieldA i.mnemonic + 4 * fieldB i.mnemonic i.mode + fieldC i.mnemonic

/-- R36. -/
def Obligations.OpcodeByteAloneFixesTheLength : Prop :=
  ∀ (set set' : List Byte) (op : Byte) (tail tail' rest rest' : List Byte) (i j : Instr),
    decode set (op :: tail) = .ok i rest → decode set' (op :: tail') = .ok j rest' →
    i.mnemonic = j.mnemonic ∧ i.mode = j.mode ∧ i.length = j.length ∧ 1 ≤ i.length ∧ i.length ≤ 3 ∧
    (op :: tail).length = i.length + rest.length ∧ (op :: tail').length = i.length + rest'.length

/-- Derived from R4, R25 and, for op8 and op16, R38. The wrap of the second address is the spec's decision D7 (log 6). -/
def Obligations.ByteOrderIsLittleEndian : Prop :=
  (∀ lo hi : Byte, (wordOfBytes lo hi).toNat = lo.toNat + 256 * hi.toNat) ∧
  (∀ (s : State) (addr : Word), (read16 s addr).toNat =
    (byteAt s addr.toNat).toNat + 256 * (byteAt s ((addr.toNat + 1) % 65536)).toNat) ∧
  ∀ (s : State) (i : Instr), fetchInstr s = some i →
    (i.length = 2 → operandBytes i = [readMem s (add16 s.pc 1)]) ∧
    (i.length = 3 → operandBytes i = [lowByte (read16 s (add16 s.pc 1)), highByte (read16 s (add16 s.pc 1))])

/-! ### The step and the halt -/

/-- R45, R33. -/
def Obligations.StepRunsTheDecodedInstruction : Prop :=
  ∀ (s : State) (i : Instr) (rest : List Byte), s.halt = .running →
    decode s.params.implementedSet
      [byteAt s s.pc.toNat, byteAt s ((s.pc.toNat + 1) % 65536), byteAt s ((s.pc.toNat + 2) % 65536)] = .ok i rest →
    step s = exec i s

/-- R32, R38, R45. -/
def Obligations.StepRunsTheInstructionInMemory : Prop :=
  ∀ (s : State) (i : Instr), s.halt = .running → i.wellFormed s.params.implementedSet = true →
    (∀ k b, (encode i)[k]? = some b → byteAt s ((s.pc.toNat + k) % 65536) = b) →
    step s = exec i s

/-- R80, R81, R42. The form of the halt is the spec's decision D11, its place in the outcomes the model's (log 7). -/
def Obligations.UnrecognisedOpcodeHaltsTheCore : Prop :=
  ∀ s : State, s.halt = .running →
    (opAt s ∉ opsRecognised ∨ s.params.implementedSet.contains (Memory.read s.mem s.pc) = false) →
    ∃ t, step s = .next t ∧ t.halt = .halted (byteAt s s.pc.toNat) ∧ (∀ q, t.reg q = s.reg q) ∧ t.pc = s.pc ∧
      t.p = s.p ∧ SameMemory s t ∧ t.params = s.params

/-- R82, R17; the spec's decision D11; that the report is a fault is the model's choice (log 7). -/
def Obligations.HaltedStateIsTerminal : Prop :=
  ∀ (s : State) (op : Byte), s.halt = .halted op →
    (∀ k : Nat, run (k + 1) s = .fault (.halted op)) ∧
    reportOf (step s) = some (.halted op) ∧ stateAfter s (step s) = s

/-- R20, R45, R86; the spec's decisions D11, D14; the outcomes are the model's (log 7). -/
def Obligations.StepReportsCompletedOrHalted : Prop :=
  ∀ s : State, s.halt = .running → (∃ t, step s = .next t) ∧
    reportOf (step s) =
      if opAt s ∈ opsRecognised ∧ s.params.implementedSet.contains (Memory.read s.mem s.pc) = true
      then some .completed else some (.halted (byteAt s s.pc.toNat))

/-- R83. -/
def Obligations.DispatchedHandlerAlwaysCompletes : Prop :=
  ∀ (i : Instr) (s : State), ∃ t, exec i s = .next t ∧ SameMachine s t

/-- R60, R9, R89. The wrap is the spec's decision D8 (log 6). -/
def Obligations.CompletedStepAdvancesPcByTheLength : Prop :=
  ∀ s t : State, step s = .next t →
    (t.halt = .running → t.pc.toNat = (s.pc.toNat + lengthOfOpcode (opAt s)) % 65536) ∧
    (t.halt ≠ .running → t.pc = s.pc)

/-- R89, R60: no branch, jump, call or return. -/
def Obligations.RunAdvancesPcSequentially : Prop :=
  ∀ (k : Nat) (s t : State), run k s = .next t → t.halt = .running →
    ∃ d, k ≤ d ∧ d ≤ 3 * k ∧ t.pc.toNat = (s.pc.toNat + d) % 65536

/-- R32, R100: every storing instruction, over any byte of the next instruction, and a store that makes the next opcode
an unrecognised one too; the spec's decision D19, and add16's wrap its D8 (log 6). The form of the halt is its D11 (log 7). -/
def Obligations.StoreIsSeenByTheNextFetch : Prop :=
  ∀ (s : State) (i : Instr) (ea : Word) (v : Byte), s.halt = .running → fetchInstr s = some i →
    storeOf i s = some (ea, v) →
    ∃ t, step s = .next t ∧ t.pc = add16 s.pc (BitVec.ofNat 16 i.length) ∧
      fetchBytes t = bytesAfterStore ea v s t.pc ∧
      match decode s.params.implementedSet (bytesAfterStore ea v s t.pc) with
      | .ok j _ => step t = exec j t
      | .error _ => step t = .next (t.setHalt (.halted (byteAfterStore ea v s t.pc)))

/-- R33, R100 (vector S8); the spec's decision D9. -/
def Obligations.StoreIntoItsOwnBytesDoesNotChangeTheStep : Prop :=
  ∀ (s : State) (k : Nat), k < 3 → s.halt = .running → s.params.implementedSet.contains 0x8D = true →
    opAt s = 0x8D →
    read16 s (add16 s.pc 1) = add16 s.pc (BitVec.ofNat 16 k) →
    ∃ t, step s = .next t ∧ StoredByte (add16 s.pc (BitVec.ofNat 16 k)) s.a s t ∧ t.pc = add16 s.pc 3 ∧
      t.halt = .running

/-! ### Flags -/

/-- R14. -/
def Obligations.SetZNIsSticky : Prop :=
  ∀ (v : Byte) (s : State), s.params.flagMode = .sticky →
    (∀ k : Fin 8, (setZN v s).p.getLsbD k.val = true ↔
      s.p.getLsbD k.val = true ∨ (k = s.params.zBit ∧ v.toNat = 0) ∨ (k = s.params.nBit ∧ 128 ≤ v.toNat)) ∧
    ∃ p', setZN v s = s.setP p'

/-- R15; the spec's decision D4 (log 4). -/
def Obligations.SetZNInParityMode : Prop :=
  ∀ (v : Byte) (s : State), s.params.flagMode = .parity → s.params.zBit ≠ s.params.nBit →
    ((setZN v s).p.getLsbD s.params.zBit.val = true ↔ v.toNat = 0) ∧
    ((setZN v s).p.getLsbD s.params.nBit.val = true ↔ 128 ≤ v.toNat) ∧
    (∀ k : Fin 8, k ≠ s.params.zBit → k ≠ s.params.nBit → (setZN v s).p.getLsbD k.val = s.p.getLsbD k.val) ∧
    ∃ p', setZN v s = s.setP p'

/-- R14, R79: 'This is the only way Z or N is ever cleared in sticky mode'. -/
def Obligations.OnlyPlpClearsAFlagInStickyMode : Prop :=
  ∀ (s t : State) (k : Fin 8), s.params.flagMode = .sticky → step s = .next t →
    s.p.getLsbD k.val = true → t.p.getLsbD k.val = false → opAt s = 0x28

/-- R16, R10. -/
def Obligations.EachInstructionHasTheStatusEffectOfR16 : Prop :=
  ∀ (i : Instr) (s : State), ∃ t, exec i s = .next t ∧
    match i.mnemonic with
    | .lda | .txa | .tya | .pla => FlagsFrom s.params t.a s.p t.p
    | .ldx | .tax | .tsx => FlagsFrom s.params t.x s.p t.p
    | .ldy | .tay => FlagsFrom s.params t.y s.p t.p
    | .sta | .stx | .sty | .txs | .pha | .php => t.p = s.p
    | .plp => t.p = byteAt s (0x100 + (s.sp.toNat + 1) % 256)

/-- R13; the spec's decision D5. -/
def Obligations.OtherStatusBitsChangeOnlyByPlp : Prop :=
  ∀ (s t : State) (k : Fin 8), step s = .next t → k ≠ s.params.zBit → k ≠ s.params.nBit →
    t.p.getLsbD k.val ≠ s.p.getLsbD k.val → opAt s = 0x28

/-- R16, R11, R13: no instruction reads a flag to decide its behaviour. -/
def Obligations.NoInstructionReadsAFlagButPhp : Prop :=
  ∀ (s t : State) (q : Byte), step s = .next t →
    ∃ u, step (s.setP q) = .next u ∧ (∀ r, u.reg r = t.reg r) ∧ u.pc = t.pc ∧ u.halt = t.halt ∧ u.params = t.params ∧
      (opAt s ≠ 0x08 → u.mem = t.mem) ∧
      ∀ b : Word, b.toNat ≠ 0x100 + s.sp.toNat → Memory.read u.mem b = Memory.read t.mem b

/-! ### What writes what -/

/-- R7. -/
def Obligations.GeneralRegistersAreWrittenOnlyByTheirInstructions : Prop :=
  ∀ s t : State, step s = .next t →
    (t.a ≠ s.a → opAt s ∈ opsWritingA) ∧ (t.x ≠ s.x → opAt s ∈ opsWritingX) ∧ (t.y ≠ s.y → opAt s ∈ opsWritingY)

/-- R8, R74, R75. -/
def Obligations.StackPointerIsWrittenOnlyByItsInstructions : Prop :=
  ∀ s t : State, step s = .next t → t.sp ≠ s.sp → opAt s ∈ opsWritingSp ∧
    (opAt s = 0x48 ∨ opAt s = 0x08 → t.sp.toNat = (s.sp.toNat + 255) % 256) ∧
    (opAt s = 0x68 ∨ opAt s = 0x28 → t.sp.toNat = (s.sp.toNat + 1) % 256)

/-- R27, R34, R23. -/
def Obligations.StepChangesAtMostOneByteOfMemory : Prop :=
  ∀ (s t : State) (b : Word), step s = .next t → Memory.read t.mem b ≠ Memory.read s.mem b →
    opAt s ∈ opsStoring ∧ ∀ c : Word, c ≠ b → Memory.read t.mem c = Memory.read s.mem c

/-! ### Addressing modes -/

/-- R51, R52, R53, R28. -/
def Obligations.ZeroPageModesStayInTheZeroPage : Prop :=
  ∀ (n : Byte) (s : State),
    (eaZp n).toNat = n.toNat ∧ (eaZpX n s).toNat = (n.toNat + s.x.toNat) % 256 ∧
    (eaZpY n s).toNat = (n.toNat + s.y.toNat) % 256 ∧ regionOf (eaZp n) = .zeroPage ∧
    regionOf (eaZpX n s) = .zeroPage ∧ regionOf (eaZpY n s) = .zeroPage

/-- R54, R55, R56. The wrap is the spec's decision D7 (log 6). -/
def Obligations.AbsoluteModesAreFullSums : Prop :=
  ∀ (w : Word) (s : State),
    eaAbs w = w ∧ (eaAbsX w s).toNat = (w.toNat + s.x.toNat) % 65536 ∧
    (eaAbsY w s).toNat = (w.toNat + s.y.toNat) % 65536

/-- Derived from R57. ZP_PTR_WRAP is left open by the spec's decision D6 (log 3): both settings are stated. That they agree
below 0xFF is R57's own inference. -/
def Obligations.ZeroPagePointerIsReadPerZpPtrWrap : Prop :=
  ∀ (p : Byte) (s : State),
    (zpRead16 p s).toNat = pointerAt s p.toNat ∧
    (p.toNat ≠ 0xFF → zpPtrHighAddr .zpWrap p = zpPtrHighAddr .linear p)

/-- R58, R59, R57. The wrap at 65536 is the spec's decision D7 (log 6). -/
def Obligations.IndirectModesGoThroughTheZeroPagePointer : Prop :=
  ∀ (n : Byte) (s : State),
    (eaIzX n s).toNat = pointerAt s ((n.toNat + s.x.toNat) % 256) ∧
    (eaIzY n s).toNat = (pointerAt s n.toNat + s.y.toNat) % 65536

/-- R50: the handler's MemRead(ea, 1) returns op8. -/
def Obligations.ImmediateOperandIsTheByteAfterTheOpcode : Prop :=
  ∀ (s : State) (op : Byte) (r : Reg), (op, r) ∈ [((0xA9 : Byte), Reg.a), (0xA2, .x), (0xA0, .y)] →
    s.halt = .running → s.params.implementedSet.contains op = true → Memory.read s.mem s.pc = op →
    (eaImm s).toNat = (s.pc.toNat + 1) % 65536 ∧
    ∃ t, step s = .next t ∧ t.reg r = readMem s (eaImm s) ∧ t.pc = add16 s.pc 2

/-! ### Loads and stores -/

/-- R61, with its encodings. add16's wrap is the spec's decision D8 (log 6); the opcode values its D1 (log 5). -/
def Obligations.LdaLoadsTheAccumulator : Prop :=
  ∀ (n : Byte) (w : Word) (s : State),
    Loads (.ldaImm n) .a n 2 s ∧
    Loads (.ldaZp n) .a (readMem s (eaZp n)) 2 s ∧
    Loads (.ldaZpX n) .a (readMem s (eaZpX n s)) 2 s ∧
    Loads (.ldaAbs w) .a (readMem s (eaAbs w)) 3 s ∧
    Loads (.ldaAbsX w) .a (readMem s (eaAbsX w s)) 3 s ∧
    Loads (.ldaAbsY w) .a (readMem s (eaAbsY w s)) 3 s ∧
    Loads (.ldaIzX n) .a (readMem s (eaIzX n s)) 2 s ∧
    Loads (.ldaIzY n) .a (readMem s (eaIzY n s)) 2 s ∧
    encode (.ldaImm n) = [0xA9, n] ∧
    encode (.ldaZp n) = [0xA5, n] ∧
    encode (.ldaZpX n) = [0xB5, n] ∧
    encode (.ldaAbs w) = [0xAD, lowByte w, highByte w] ∧
    encode (.ldaAbsX w) = [0xBD, lowByte w, highByte w] ∧
    encode (.ldaAbsY w) = [0xB9, lowByte w, highByte w] ∧
    encode (.ldaIzX n) = [0xA1, n] ∧
    encode (.ldaIzY n) = [0xB1, n]

/-- R62, with its encodings. add16's wrap is the spec's decision D8 (log 6); the opcode values its D1 (log 5). -/
def Obligations.LdxLoadsX : Prop :=
  ∀ (n : Byte) (w : Word) (s : State),
    Loads (.ldxImm n) .x n 2 s ∧
    Loads (.ldxZp n) .x (readMem s (eaZp n)) 2 s ∧
    Loads (.ldxZpY n) .x (readMem s (eaZpY n s)) 2 s ∧
    Loads (.ldxAbs w) .x (readMem s (eaAbs w)) 3 s ∧
    Loads (.ldxAbsY w) .x (readMem s (eaAbsY w s)) 3 s ∧
    encode (.ldxImm n) = [0xA2, n] ∧
    encode (.ldxZp n) = [0xA6, n] ∧
    encode (.ldxZpY n) = [0xB6, n] ∧
    encode (.ldxAbs w) = [0xAE, lowByte w, highByte w] ∧
    encode (.ldxAbsY w) = [0xBE, lowByte w, highByte w]

/-- R63, with its encodings. add16's wrap is the spec's decision D8 (log 6); the opcode values its D1 (log 5). -/
def Obligations.LdyLoadsY : Prop :=
  ∀ (n : Byte) (w : Word) (s : State),
    Loads (.ldyImm n) .y n 2 s ∧
    Loads (.ldyZp n) .y (readMem s (eaZp n)) 2 s ∧
    Loads (.ldyZpX n) .y (readMem s (eaZpX n s)) 2 s ∧
    Loads (.ldyAbs w) .y (readMem s (eaAbs w)) 3 s ∧
    Loads (.ldyAbsX w) .y (readMem s (eaAbsX w s)) 3 s ∧
    encode (.ldyImm n) = [0xA0, n] ∧
    encode (.ldyZp n) = [0xA4, n] ∧
    encode (.ldyZpX n) = [0xB4, n] ∧
    encode (.ldyAbs w) = [0xAC, lowByte w, highByte w] ∧
    encode (.ldyAbsX w) = [0xBC, lowByte w, highByte w]

/-- R64, with its encodings. add16's wrap is the spec's decision D8 (log 6); the opcode values its D1 (log 5). -/
def Obligations.StaStoresTheAccumulator : Prop :=
  ∀ (n : Byte) (w : Word) (s : State),
    Stores (.staZp n) (eaZp n) s.a 2 s ∧
    Stores (.staZpX n) (eaZpX n s) s.a 2 s ∧
    Stores (.staAbs w) (eaAbs w) s.a 3 s ∧
    Stores (.staAbsX w) (eaAbsX w s) s.a 3 s ∧
    Stores (.staAbsY w) (eaAbsY w s) s.a 3 s ∧
    Stores (.staIzX n) (eaIzX n s) s.a 2 s ∧
    Stores (.staIzY n) (eaIzY n s) s.a 2 s ∧
    encode (.staZp n) = [0x85, n] ∧
    encode (.staZpX n) = [0x95, n] ∧
    encode (.staAbs w) = [0x8D, lowByte w, highByte w] ∧
    encode (.staAbsX w) = [0x9D, lowByte w, highByte w] ∧
    encode (.staAbsY w) = [0x99, lowByte w, highByte w] ∧
    encode (.staIzX n) = [0x81, n] ∧
    encode (.staIzY n) = [0x91, n]

/-- R65, with its encodings. add16's wrap is the spec's decision D8 (log 6); the opcode values its D1 (log 5). -/
def Obligations.StxStoresX : Prop :=
  ∀ (n : Byte) (w : Word) (s : State),
    Stores (.stxZp n) (eaZp n) s.x 2 s ∧
    Stores (.stxZpY n) (eaZpY n s) s.x 2 s ∧
    Stores (.stxAbs w) (eaAbs w) s.x 3 s ∧
    encode (.stxZp n) = [0x86, n] ∧
    encode (.stxZpY n) = [0x96, n] ∧
    encode (.stxAbs w) = [0x8E, lowByte w, highByte w]

/-- R66, with its encodings. add16's wrap is the spec's decision D8 (log 6); the opcode values its D1 (log 5). -/
def Obligations.StyStoresY : Prop :=
  ∀ (n : Byte) (w : Word) (s : State),
    Stores (.styZp n) (eaZp n) s.y 2 s ∧
    Stores (.styZpX n) (eaZpX n s) s.y 2 s ∧
    Stores (.styAbs w) (eaAbs w) s.y 3 s ∧
    encode (.styZp n) = [0x84, n] ∧
    encode (.styZpX n) = [0x94, n] ∧
    encode (.styAbs w) = [0x8C, lowByte w, highByte w]

/-! ### Transfers -/

/-- R68, with its encoding. add16's wrap is the spec's decision D8 (log 6); the opcode value its D1 (log 5). -/
def Obligations.TaxCopiesAToX : Prop :=
  ∀ s : State, Loads .tax .x s.a 1 s ∧ encode .tax = [0xAA]

/-- R69, with its encoding. add16's wrap is the spec's decision D8 (log 6); the opcode value its D1 (log 5). -/
def Obligations.TayCopiesAToY : Prop :=
  ∀ s : State, Loads .tay .y s.a 1 s ∧ encode .tay = [0xA8]

/-- R70, with its encoding. add16's wrap is the spec's decision D8 (log 6); the opcode value its D1 (log 5). -/
def Obligations.TxaCopiesXToA : Prop :=
  ∀ s : State, Loads .txa .a s.x 1 s ∧ encode .txa = [0x8A]

/-- R71, with its encoding. add16's wrap is the spec's decision D8 (log 6); the opcode value its D1 (log 5). -/
def Obligations.TyaCopiesYToA : Prop :=
  ∀ s : State, Loads .tya .a s.y 1 s ∧ encode .tya = [0x98]

/-- R72, with its encoding. add16's wrap is the spec's decision D8 (log 6); the opcode value its D1 (log 5). -/
def Obligations.TsxCopiesSpToX : Prop :=
  ∀ s : State, Loads .tsx .x s.sp 1 s ∧ encode .tsx = [0xBA]

/-- R73, with its encoding. add16's wrap is the spec's decision D8 (log 6); the opcode value its D1 (log 5). -/
def Obligations.TxsCopiesXToSpWithoutFlags : Prop :=
  ∀ s : State, encode .txs = [0x9A] ∧ ∃ t, exec .txs s = .next t ∧ t.sp = s.x ∧ (∀ q, q ≠ .sp → t.reg q = s.reg q) ∧
    t.p = s.p ∧ t.pc = add16 s.pc 1 ∧ SameMemory s t ∧ SameMachine s t

/-- R72, R73 (the laws of the family). -/
def Obligations.TransfersBetweenXAndSpRoundTrip : Prop :=
  ∀ s : State,
    (∃ t u, exec .txs s = .next t ∧ exec .tsx t = .next u ∧ u.x = s.x ∧ u.sp = s.x ∧ u.a = s.a ∧ u.y = s.y ∧
      SameMemory s u) ∧
    (∃ t u, exec .tsx s = .next t ∧ exec .txs t = .next u ∧ u.sp = s.sp ∧ u.x = s.sp ∧ u.a = s.a ∧ u.y = s.y ∧
      SameMemory s u)

/-! ### Stack -/

/-- R74. -/
def Obligations.PushWritesThenDecrements : Prop :=
  ∀ (v : Byte) (s : State),
    (stackAddr s).toNat = 0x100 + s.sp.toNat ∧ StoredByte (stackAddr s) v s (push v s) ∧
    (push v s).sp.toNat = (s.sp.toNat + 255) % 256 ∧ (∀ q, q ≠ .sp → (push v s).reg q = s.reg q) ∧
    (push v s).pc = s.pc ∧ (push v s).p = s.p ∧ SameMachine s (push v s)

/-- R75. -/
def Obligations.PullIncrementsThenReads : Prop :=
  ∀ s : State,
    (pull s).1 = byteAt s (0x100 + (s.sp.toNat + 1) % 256) ∧ (pull s).2.sp.toNat = (s.sp.toNat + 1) % 256 ∧
    (∀ q, q ≠ .sp → (pull s).2.reg q = s.reg q) ∧ (pull s).2.pc = s.pc ∧ (pull s).2.p = s.p ∧
    SameMemory s (pull s).2 ∧ SameMachine s (pull s).2

/-- R76, with its encoding. add16's wrap is the spec's decision D8 (log 6). -/
def Obligations.PhaPushesTheAccumulator : Prop :=
  ∀ s : State, Pushes .pha s.a s ∧ encode .pha = [0x48]

/-- R77, with its encoding. add16's wrap is the spec's decision D8 (log 6); the opcode value its D1 (log 5). -/
def Obligations.PhpPushesTheStatus : Prop :=
  ∀ s : State, Pushes .php s.p s ∧ encode .php = [0x08]

/-- R78, with its encoding. add16's wrap is the spec's decision D8 (log 6); the opcode value its D1 (log 5). -/
def Obligations.PlaPullsTheAccumulator : Prop :=
  ∀ s : State, encode .pla = [0x68] ∧ ∃ t, exec .pla s = .next t ∧ t.sp.toNat = (s.sp.toNat + 1) % 256 ∧
    t.a = byteAt s (0x100 + (s.sp.toNat + 1) % 256) ∧ t.x = s.x ∧ t.y = s.y ∧ FlagsFrom s.params t.a s.p t.p ∧
    t.pc = add16 s.pc 1 ∧ SameMemory s t ∧ SameMachine s t

/-- R79, with its encoding. add16's wrap is the spec's decision D8 (log 6); the opcode value its D1 (log 5). -/
def Obligations.PlpPullsTheStatus : Prop :=
  ∀ s : State, encode .plp = [0x28] ∧ ∃ t, exec .plp s = .next t ∧ t.sp.toNat = (s.sp.toNat + 1) % 256 ∧
    t.p = byteAt s (0x100 + (s.sp.toNat + 1) % 256) ∧ t.a = s.a ∧ t.x = s.x ∧ t.y = s.y ∧
    t.pc = add16 s.pc 1 ∧ SameMemory s t ∧ SameMachine s t

/-- R74, R75, R76 to R79 (the laws of 43_stack.md). -/
def Obligations.PushThenPullRestores : Prop :=
  ∀ (v : Byte) (s : State),
    (pull (push v s)).1 = v ∧ (pull (push v s)).2.sp = s.sp ∧
    (∃ t u, exec .php s = .next t ∧ exec .plp t = .next u ∧ u.p = s.p ∧ ∀ q, u.reg q = s.reg q) ∧
    (∃ t u, exec .pha s = .next t ∧ exec .pla t = .next u ∧ (∀ q, u.reg q = s.reg q) ∧ FlagsFrom s.params s.a s.p u.p)

/-- R74, R75 (the laws of 43_stack.md: at most 256 bytes before the oldest is overwritten). -/
def Obligations.StackIsLastInFirstOut : Prop :=
  ∀ (vs : List Byte) (s : State), vs.length ≤ 256 →
    (pullAll vs.length (pushAll vs s)).1 = vs.reverse ∧ (pullAll vs.length (pushAll vs s)).2.sp = s.sp

/-- R74 (the laws of 43_stack.md). No report: the halt condition, the core's one report (R17, R20), is as it was. -/
def Obligations.The257thPushOverwritesTheOldestByte : Prop :=
  ∀ (v w : Byte) (vs : List Byte) (s : State), vs.length = 255 →
    byteAt (pushAll (v :: vs) s) (0x100 + s.sp.toNat) = v ∧
    byteAt (pushAll (v :: vs ++ [w]) s) (0x100 + s.sp.toNat) = w ∧
    (pushAll (v :: vs ++ [w]) s).sp.toNat = (s.sp.toNat + 255) % 256 ∧
    SameMachine s (pushAll (v :: vs ++ [w]) s)

/-- R28, R74. -/
def Obligations.PushesStayInTheStackPage : Prop :=
  ∀ (vs : List Byte) (s : State),
    (∀ b : Word, regionOf b ≠ .stackPage → Memory.read (pushAll vs s).mem b = Memory.read s.mem b) ∧
    ((pushAll vs s).sp.toNat + vs.length) % 256 = s.sp.toNat ∧
    (∀ q, q ≠ .sp → (pushAll vs s).reg q = s.reg q) ∧ (pushAll vs s).p = s.p ∧ (pushAll vs s).pc = s.pc
end

