-- ==== Sys2Proof/Laws/Decode.lean ====
section
/-!
SUPPORT. Sys2Proof/Laws/Decode.lean: the dispatch table said once in the encoder's terms, and the byte order as inverse
pairs (R25, R38, R39, R44).
-/
namespace Sys2Proof

/-- What the dispatch table may give an opcode: instructions with that opcode and the operand bytes of their format. -/
def Form.Fits (op : Byte) : Form → Prop
  | .f1 i => op = opcode i ∧ operandBytes i = []
  | .f2 mk => ∀ n, op = opcode (mk n) ∧ operandBytes (mk n) = [n]
  | .f3 mk => ∀ w, op = opcode (mk w) ∧ operandBytes (mk w) = [lowByte w, highByte w]

theorem dispatch_fits {op : Byte} {f : Form} (h : dispatch op = some f) : f.Fits op := by
  have hop : op = BitVec.ofNat 8 op.toNat := by simp
  unfold dispatch at h
  split at h
  all_goals first
    | (rename_i heq; rw [heq] at hop; cases h; first | exact ⟨hop, rfl⟩ | exact fun _ => ⟨hop, rfl⟩)
    | cases h

theorem wordOfBytes_low_high (w : Word) : wordOfBytes (lowByte w) (highByte w) = w := by
  unfold wordOfBytes zext16 lowByte highByte
  ext i hi
  simp
  grind

theorem lowByte_wordOfBytes (lo hi : Byte) : lowByte (wordOfBytes lo hi) = lo := by
  unfold wordOfBytes zext16 lowByte
  ext i h
  simp

theorem highByte_wordOfBytes (lo hi : Byte) : highByte (wordOfBytes lo hi) = hi := by
  unfold wordOfBytes zext16 highByte
  ext i h
  simp
  grind

/-- Every opcode of the encoder is one of the 41 of R39. -/
theorem opcode_mem (i : Instr) : opcodes.contains (opcode i) = true := by cases i <;> rfl

end Sys2Proof
end

