-- ==== Sys2Proof/Laws/Memory.lean ====
section
/-!
SUPPORT. Sys2Proof/Laws/Memory.lean: read after write on any memory, and that every memory operation keeps the canonical
form (R3, R22 to R24).
-/
namespace Sys2Proof.Machine

theorem Memory.readNat_erase_same (m : Memory) (k : Nat) : Memory.readNat (Memory.erase m k) k = 0 := by
  induction m with
  | nil => rfl
  | cons c rest ih =>
    obtain ⟨a, v⟩ := c
    by_cases h : a = k
    · simpa [Memory.erase, h] using ih
    · simpa [Memory.erase, Memory.readNat, h] using ih

theorem Memory.readNat_erase_other (m : Memory) (k j : Nat) (hj : j ≠ k) :
    Memory.readNat (Memory.erase m k) j = Memory.readNat m j := by
  induction m with
  | nil => rfl
  | cons c rest ih =>
    obtain ⟨a, v⟩ := c
    by_cases h : a = k
    · simpa [Memory.erase, Memory.readNat, h, hj.symm] using ih
    · simp [Memory.erase, Memory.readNat, h, ih]

theorem Memory.readNat_put_same (m : Memory) (k : Nat) (b : Byte) : Memory.readNat (Memory.put m k b) k = b := by
  induction m with
  | nil => simp [Memory.put, Memory.readNat]
  | cons c rest ih =>
    obtain ⟨a, v⟩ := c
    by_cases h : a < k
    · simpa [Memory.put, Memory.readNat, h, Nat.ne_of_lt h] using ih
    · simp [Memory.put, Memory.readNat, h]

theorem Memory.readNat_put_other (m : Memory) (k j : Nat) (b : Byte) (hj : j ≠ k) :
    Memory.readNat (Memory.put m k b) j = Memory.readNat m j := by
  induction m with
  | nil => simp [Memory.put, Memory.readNat, hj.symm]
  | cons c rest ih =>
    obtain ⟨a, v⟩ := c
    by_cases h : a < k
    · simp [Memory.put, Memory.readNat, h, ih]
    · simp [Memory.put, Memory.readNat, h, hj.symm]

@[simp] theorem Memory.read_write_same (m : Memory) (a : Word) (v : Byte) :
    Memory.read (Memory.write m a v) a = v := by
  by_cases h : v = 0#8
  · simpa [Memory.read, Memory.write, h] using Memory.readNat_erase_same m a.toNat
  · simpa [Memory.read, Memory.write, h] using Memory.readNat_put_same _ a.toNat v

theorem Memory.read_write_other (m : Memory) (a b : Word) (v : Byte) (hb : b ≠ a) :
    Memory.read (Memory.write m a v) b = Memory.read m b := by
  have hn : b.toNat ≠ a.toNat := fun h => hb (BitVec.eq_of_toNat_eq h)
  by_cases h : v = 0#8
  · simpa [Memory.read, Memory.write, h] using Memory.readNat_erase_other m a.toNat b.toNat hn
  · simp [Memory.read, Memory.write, h, Memory.readNat_put_other _ _ _ _ hn,
      Memory.readNat_erase_other m a.toNat b.toNat hn]

theorem Memory.wfFrom_mono (m : Memory) (lo hi : Nat) (h : lo ≤ hi) (hw : Memory.wfFrom hi m = true) :
    Memory.wfFrom lo m = true := by
  cases m with
  | nil => rfl
  | cons c rest =>
    simp only [Memory.wfFrom, Bool.and_eq_true, decide_eq_true_eq] at hw ⊢
    exact ⟨⟨⟨h.trans hw.1.1.1, hw.1.1.2⟩, hw.1.2⟩, hw.2⟩

theorem Memory.erase_wfFrom (m : Memory) (lo k : Nat) (hw : Memory.wfFrom lo m = true) :
    Memory.wfFrom lo (Memory.erase m k) = true := by
  induction m generalizing lo with
  | nil => rfl
  | cons c rest ih =>
    simp only [Memory.wfFrom, Bool.and_eq_true, decide_eq_true_eq] at hw
    by_cases h : c.1 = k
    · simpa [Memory.erase, h] using ih lo (Memory.wfFrom_mono _ _ _ (hw.1.1.1.trans (Nat.le_succ _)) hw.2)
    · simp only [Memory.erase, h, if_false, Memory.wfFrom, Bool.and_eq_true, decide_eq_true_eq]
      exact ⟨hw.1, ih _ hw.2⟩

theorem Memory.put_wfFrom (m : Memory) (lo k : Nat) (b : Byte) (hk : lo ≤ k) (hk' : k < 65536) (hb : b ≠ 0#8)
    (hw : Memory.wfFrom lo m = true) (hfresh : ∀ c ∈ m, c.1 ≠ k) : Memory.wfFrom lo (Memory.put m k b) = true := by
  induction m generalizing lo with
  | nil => simp [Memory.put, Memory.wfFrom, hk, hk', hb]
  | cons c rest ih =>
    obtain ⟨a, v⟩ := c
    simp only [Memory.wfFrom, Bool.and_eq_true, decide_eq_true_eq] at hw
    by_cases h : a < k
    · simp only [Memory.put, h, if_true, Memory.wfFrom, Bool.and_eq_true, decide_eq_true_eq]
      exact ⟨hw.1, ih _ h hw.2 fun c hc => hfresh c (List.mem_cons_of_mem _ hc)⟩
    · have hne : a ≠ k := hfresh _ List.mem_cons_self
      simp only [Memory.put, h, if_false, Memory.wfFrom, Bool.and_eq_true, decide_eq_true_eq]
      exact ⟨⟨⟨hk, hk'⟩, by simpa using hb⟩, ⟨⟨by omega, hw.1.1.2⟩, hw.1.2⟩, hw.2⟩

theorem Memory.erase_fresh (m : Memory) (k : Nat) : ∀ c ∈ Memory.erase m k, c.1 ≠ k := by
  induction m with
  | nil => simp [Memory.erase]
  | cons c rest ih =>
    by_cases h : c.1 = k
    · simpa [Memory.erase, h] using ih
    · simp only [Memory.erase, h, if_false, List.mem_cons, forall_eq_or_imp]
      exact ⟨h, ih⟩

theorem Memory.write_wf (m : Memory) (a : Word) (v : Byte) (hw : m.wf = true) : (Memory.write m a v).wf = true := by
  have he := Memory.erase_wfFrom m 0 a.toNat hw
  by_cases h : v = 0#8
  · simpa [Memory.write, Memory.wf, h] using he
  · simpa [Memory.write, Memory.wf, h] using
      Memory.put_wfFrom _ 0 a.toNat v (Nat.zero_le _) a.isLt h he (Memory.erase_fresh m a.toNat)

theorem Memory.preload_wf (bytes : List Byte) (base : Word) (m : Memory) (hw : m.wf = true) :
    (Memory.preload base bytes m).wf = true := by
  induction bytes generalizing base m with
  | nil => exact hw
  | cons b rest ih => exact ih _ _ (Memory.write_wf _ _ _ hw)

theorem Memory.nil_wf : Memory.wf [] = true := rfl

end Sys2Proof.Machine
end

