-- ==== Sys2Proof/Laws/State.lean ====
section
/-!
SUPPORT. Sys2Proof/Laws/State.lean: what each field update does to each field, true by rfl, so that no proof unfolds a
record update; register reads after register writes.
-/
namespace Sys2Proof.Machine

@[simp] theorem State.setA_a (v : Byte) (s : State) : (s.setA v).a = v := rfl
@[simp] theorem State.setA_x (v : Byte) (s : State) : (s.setA v).x = s.x := rfl
@[simp] theorem State.setA_y (v : Byte) (s : State) : (s.setA v).y = s.y := rfl
@[simp] theorem State.setA_sp (v : Byte) (s : State) : (s.setA v).sp = s.sp := rfl
@[simp] theorem State.setA_pc (v : Byte) (s : State) : (s.setA v).pc = s.pc := rfl
@[simp] theorem State.setA_p (v : Byte) (s : State) : (s.setA v).p = s.p := rfl
@[simp] theorem State.setA_halt (v : Byte) (s : State) : (s.setA v).halt = s.halt := rfl
@[simp] theorem State.setA_mem (v : Byte) (s : State) : (s.setA v).mem = s.mem := rfl
@[simp] theorem State.setA_params (v : Byte) (s : State) : (s.setA v).params = s.params := rfl

@[simp] theorem State.setX_a (v : Byte) (s : State) : (s.setX v).a = s.a := rfl
@[simp] theorem State.setX_x (v : Byte) (s : State) : (s.setX v).x = v := rfl
@[simp] theorem State.setX_y (v : Byte) (s : State) : (s.setX v).y = s.y := rfl
@[simp] theorem State.setX_sp (v : Byte) (s : State) : (s.setX v).sp = s.sp := rfl
@[simp] theorem State.setX_pc (v : Byte) (s : State) : (s.setX v).pc = s.pc := rfl
@[simp] theorem State.setX_p (v : Byte) (s : State) : (s.setX v).p = s.p := rfl
@[simp] theorem State.setX_halt (v : Byte) (s : State) : (s.setX v).halt = s.halt := rfl
@[simp] theorem State.setX_mem (v : Byte) (s : State) : (s.setX v).mem = s.mem := rfl
@[simp] theorem State.setX_params (v : Byte) (s : State) : (s.setX v).params = s.params := rfl

@[simp] theorem State.setY_a (v : Byte) (s : State) : (s.setY v).a = s.a := rfl
@[simp] theorem State.setY_x (v : Byte) (s : State) : (s.setY v).x = s.x := rfl
@[simp] theorem State.setY_y (v : Byte) (s : State) : (s.setY v).y = v := rfl
@[simp] theorem State.setY_sp (v : Byte) (s : State) : (s.setY v).sp = s.sp := rfl
@[simp] theorem State.setY_pc (v : Byte) (s : State) : (s.setY v).pc = s.pc := rfl
@[simp] theorem State.setY_p (v : Byte) (s : State) : (s.setY v).p = s.p := rfl
@[simp] theorem State.setY_halt (v : Byte) (s : State) : (s.setY v).halt = s.halt := rfl
@[simp] theorem State.setY_mem (v : Byte) (s : State) : (s.setY v).mem = s.mem := rfl
@[simp] theorem State.setY_params (v : Byte) (s : State) : (s.setY v).params = s.params := rfl

@[simp] theorem State.setSp_a (v : Byte) (s : State) : (s.setSp v).a = s.a := rfl
@[simp] theorem State.setSp_x (v : Byte) (s : State) : (s.setSp v).x = s.x := rfl
@[simp] theorem State.setSp_y (v : Byte) (s : State) : (s.setSp v).y = s.y := rfl
@[simp] theorem State.setSp_sp (v : Byte) (s : State) : (s.setSp v).sp = v := rfl
@[simp] theorem State.setSp_pc (v : Byte) (s : State) : (s.setSp v).pc = s.pc := rfl
@[simp] theorem State.setSp_p (v : Byte) (s : State) : (s.setSp v).p = s.p := rfl
@[simp] theorem State.setSp_halt (v : Byte) (s : State) : (s.setSp v).halt = s.halt := rfl
@[simp] theorem State.setSp_mem (v : Byte) (s : State) : (s.setSp v).mem = s.mem := rfl
@[simp] theorem State.setSp_params (v : Byte) (s : State) : (s.setSp v).params = s.params := rfl

@[simp] theorem State.setPc_a (v : Word) (s : State) : (s.setPc v).a = s.a := rfl
@[simp] theorem State.setPc_x (v : Word) (s : State) : (s.setPc v).x = s.x := rfl
@[simp] theorem State.setPc_y (v : Word) (s : State) : (s.setPc v).y = s.y := rfl
@[simp] theorem State.setPc_sp (v : Word) (s : State) : (s.setPc v).sp = s.sp := rfl
@[simp] theorem State.setPc_pc (v : Word) (s : State) : (s.setPc v).pc = v := rfl
@[simp] theorem State.setPc_p (v : Word) (s : State) : (s.setPc v).p = s.p := rfl
@[simp] theorem State.setPc_halt (v : Word) (s : State) : (s.setPc v).halt = s.halt := rfl
@[simp] theorem State.setPc_mem (v : Word) (s : State) : (s.setPc v).mem = s.mem := rfl
@[simp] theorem State.setPc_params (v : Word) (s : State) : (s.setPc v).params = s.params := rfl

@[simp] theorem State.setP_a (v : Byte) (s : State) : (s.setP v).a = s.a := rfl
@[simp] theorem State.setP_x (v : Byte) (s : State) : (s.setP v).x = s.x := rfl
@[simp] theorem State.setP_y (v : Byte) (s : State) : (s.setP v).y = s.y := rfl
@[simp] theorem State.setP_sp (v : Byte) (s : State) : (s.setP v).sp = s.sp := rfl
@[simp] theorem State.setP_pc (v : Byte) (s : State) : (s.setP v).pc = s.pc := rfl
@[simp] theorem State.setP_p (v : Byte) (s : State) : (s.setP v).p = v := rfl
@[simp] theorem State.setP_halt (v : Byte) (s : State) : (s.setP v).halt = s.halt := rfl
@[simp] theorem State.setP_mem (v : Byte) (s : State) : (s.setP v).mem = s.mem := rfl
@[simp] theorem State.setP_params (v : Byte) (s : State) : (s.setP v).params = s.params := rfl

@[simp] theorem State.setHalt_a (v : Halt) (s : State) : (s.setHalt v).a = s.a := rfl
@[simp] theorem State.setHalt_x (v : Halt) (s : State) : (s.setHalt v).x = s.x := rfl
@[simp] theorem State.setHalt_y (v : Halt) (s : State) : (s.setHalt v).y = s.y := rfl
@[simp] theorem State.setHalt_sp (v : Halt) (s : State) : (s.setHalt v).sp = s.sp := rfl
@[simp] theorem State.setHalt_pc (v : Halt) (s : State) : (s.setHalt v).pc = s.pc := rfl
@[simp] theorem State.setHalt_p (v : Halt) (s : State) : (s.setHalt v).p = s.p := rfl
@[simp] theorem State.setHalt_halt (v : Halt) (s : State) : (s.setHalt v).halt = v := rfl
@[simp] theorem State.setHalt_mem (v : Halt) (s : State) : (s.setHalt v).mem = s.mem := rfl
@[simp] theorem State.setHalt_params (v : Halt) (s : State) : (s.setHalt v).params = s.params := rfl

@[simp] theorem State.setMem_a (v : Memory) (s : State) : (s.setMem v).a = s.a := rfl
@[simp] theorem State.setMem_x (v : Memory) (s : State) : (s.setMem v).x = s.x := rfl
@[simp] theorem State.setMem_y (v : Memory) (s : State) : (s.setMem v).y = s.y := rfl
@[simp] theorem State.setMem_sp (v : Memory) (s : State) : (s.setMem v).sp = s.sp := rfl
@[simp] theorem State.setMem_pc (v : Memory) (s : State) : (s.setMem v).pc = s.pc := rfl
@[simp] theorem State.setMem_p (v : Memory) (s : State) : (s.setMem v).p = s.p := rfl
@[simp] theorem State.setMem_halt (v : Memory) (s : State) : (s.setMem v).halt = s.halt := rfl
@[simp] theorem State.setMem_mem (v : Memory) (s : State) : (s.setMem v).mem = v := rfl
@[simp] theorem State.setMem_params (v : Memory) (s : State) : (s.setMem v).params = s.params := rfl

@[simp] theorem State.setReg_p (r : Reg) (v : Byte) (s : State) : (s.setReg r v).p = s.p := by cases r <;> rfl
@[simp] theorem State.setReg_halt (r : Reg) (v : Byte) (s : State) : (s.setReg r v).halt = s.halt := by cases r <;> rfl
@[simp] theorem State.setReg_params (r : Reg) (v : Byte) (s : State) : (s.setReg r v).params = s.params := by cases r <;> rfl
@[simp] theorem State.setReg_pc (r : Reg) (v : Byte) (s : State) : (s.setReg r v).pc = s.pc := by cases r <;> rfl
@[simp] theorem State.setReg_mem (r : Reg) (v : Byte) (s : State) : (s.setReg r v).mem = s.mem := by cases r <;> rfl

@[simp] theorem State.reg_setReg_same (r : Reg) (v : Byte) (s : State) : (s.setReg r v).reg r = v := by cases r <;> rfl

theorem State.reg_setReg_other (r q : Reg) (v : Byte) (s : State) (h : q ≠ r) : (s.setReg r v).reg q = s.reg q := by
  cases r <;> cases q <;> first | rfl | exact absurd rfl h

@[simp] theorem State.reg_setP (q : Reg) (v : Byte) (s : State) : (s.setP v).reg q = s.reg q := by cases q <;> rfl

@[simp] theorem State.reg_setPc (q : Reg) (v : Word) (s : State) : (s.setPc v).reg q = s.reg q := by cases q <;> rfl

@[simp] theorem State.reg_setMem (q : Reg) (v : Memory) (s : State) : (s.setMem v).reg q = s.reg q := by cases q <;> rfl

@[simp] theorem State.reg_setHalt (q : Reg) (v : Halt) (s : State) : (s.setHalt v).reg q = s.reg q := by cases q <;> rfl

end Sys2Proof.Machine
end

