-- ==== Sys2Proof/Laws/Ops.lean ====
section
/-!
SUPPORT. Sys2Proof/Laws/Ops.lean: one lemma per shared operation that says once everything it does, the inversion of a
step, and the pointer rule R57 in the spec's own form.
-/
namespace Sys2Proof.Machine

@[simp] theorem setZN_a (v : Byte) (s : State) : (setZN v s).a = s.a := rfl
@[simp] theorem setZN_x (v : Byte) (s : State) : (setZN v s).x = s.x := rfl
@[simp] theorem setZN_y (v : Byte) (s : State) : (setZN v s).y = s.y := rfl
@[simp] theorem setZN_sp (v : Byte) (s : State) : (setZN v s).sp = s.sp := rfl
@[simp] theorem setZN_pc (v : Byte) (s : State) : (setZN v s).pc = s.pc := rfl
@[simp] theorem setZN_p (v : Byte) (s : State) : (setZN v s).p = statusZN s.params v s.p := rfl
@[simp] theorem setZN_halt (v : Byte) (s : State) : (setZN v s).halt = s.halt := rfl
@[simp] theorem setZN_mem (v : Byte) (s : State) : (setZN v s).mem = s.mem := rfl
@[simp] theorem setZN_params (v : Byte) (s : State) : (setZN v s).params = s.params := rfl
@[simp] theorem reg_setZN (q : Reg) (v : Byte) (s : State) : (setZN v s).reg q = s.reg q := by cases q <;> rfl

theorem readMem_writeMem_same (a : Word) (v : Byte) (s : State) : readMem (writeMem a v s) a = v :=
  Memory.read_write_same _ _ _

theorem readMem_writeMem_other (a b : Word) (v : Byte) (s : State) (h : b ≠ a) :
    readMem (writeMem a v s) b = readMem s b := Memory.read_write_other _ _ _ _ h

/-- Everything a load does. -/
theorem loadValue_spec (r : Reg) (v : Byte) (len : Word) (s : State) :
    ∃ t, loadValue r v len s = .next t ∧ t.reg r = v ∧ (∀ q, q ≠ r → t.reg q = s.reg q) ∧
      t.p = statusZN s.params v s.p ∧ t.pc = add16 s.pc len ∧ t.mem = s.mem ∧ t.halt = s.halt ∧ t.params = s.params :=
  ⟨_, rfl, by simp, fun q hq => by simp [State.reg_setReg_other r q v s hq], by simp, by simp, by simp, by simp, by simp⟩

/-- Everything a store does. -/
theorem storeTo_spec (r : Reg) (ea len : Word) (s : State) :
    ∃ t, storeTo r ea len s = .next t ∧ t.mem = Memory.write s.mem ea (s.reg r) ∧ (∀ q, t.reg q = s.reg q) ∧
      t.p = s.p ∧ t.pc = add16 s.pc len ∧ t.halt = s.halt ∧ t.params = s.params :=
  ⟨_, rfl, rfl, fun q => by simp [writeMem], rfl, rfl, rfl, rfl⟩

/-- Everything a transfer with flags does. -/
theorem transfer_spec (src dst : Reg) (s : State) :
    ∃ t, transfer src dst s = .next t ∧ t.reg dst = s.reg src ∧ (∀ q, q ≠ dst → t.reg q = s.reg q) ∧
      t.p = statusZN s.params (s.reg src) s.p ∧ t.pc = add16 s.pc 1 ∧ t.mem = s.mem ∧ t.halt = s.halt ∧
      t.params = s.params :=
  ⟨_, rfl, by simp, fun q hq => by simp [State.reg_setReg_other dst q _ s hq], by simp, by simp, by simp, by simp, by simp⟩

/-- Everything a transfer without flags does. -/
theorem transferQuiet_spec (src dst : Reg) (s : State) :
    ∃ t, transferQuiet src dst s = .next t ∧ t.reg dst = s.reg src ∧ (∀ q, q ≠ dst → t.reg q = s.reg q) ∧
      t.p = s.p ∧ t.pc = add16 s.pc 1 ∧ t.mem = s.mem ∧ t.halt = s.halt ∧ t.params = s.params :=
  ⟨_, rfl, by simp, fun q hq => by simp [State.reg_setReg_other dst q _ s hq], by simp, by simp, by simp, by simp, by simp⟩

/-- Everything a push does (R74). -/
theorem push_eq (v : Byte) (s : State) :
    push v s = { s with mem := Memory.write s.mem (stackAddr s) v, sp := sub8 s.sp 1 } := rfl

/-- Everything a pull does (R75). -/
theorem pull_eq (s : State) :
    pull s = (Memory.read s.mem (0x0100#16 ||| zext16 (add8 s.sp 1)), { s with sp := add8 s.sp 1 }) := rfl

/-- What a step that answers a next state can have done. -/
theorem step_cases {s t : State} (h : step s = .next t) :
    s.halt = .running ∧
      ((∃ i, fetchInstr s = some i ∧ exec i s = .next t) ∨ (fetchInstr s = none ∧ t = raiseUnrecognizedOpcode s)) := by
  unfold step at h
  cases hh : s.halt with
  | halted op => simp [hh, stepHalted] at h
  | running =>
    refine ⟨rfl, ?_⟩
    cases hf : fetchInstr s with
    | some i => exact .inl ⟨i, rfl, by simpa [hh, hf] using h⟩
    | none => exact .inr ⟨rfl, by simpa [hh, hf] using h.symm⟩

theorem step_of_fetch {s : State} {i : Instr} (hr : s.halt = .running) (hf : fetchInstr s = some i) :
    step s = exec i s := by simp [step, hr, hf]

theorem step_of_no_fetch {s : State} (hr : s.halt = .running) (hf : fetchInstr s = none) :
    step s = .next (raiseUnrecognizedOpcode s) := by simp [step, hr, hf]

/-- R57 as the spec writes it, ZP_PTR_WRAP = zp_wrap. -/
theorem zpPtrHighAddr_zpWrap (ptr : Byte) : zpPtrHighAddr .zpWrap ptr = zext16 (add8 ptr 1) := by
  revert ptr; decide

/-- R57 as the spec writes it, ZP_PTR_WRAP = linear. -/
theorem zpPtrHighAddr_linear (ptr : Byte) : zpPtrHighAddr .linear ptr = add16 (zext16 ptr) 1 := by
  revert ptr; decide

end Sys2Proof.Machine
end

