-- ==== Sys2Proof/Laws/PerInstr.lean ====
section
/-!
SUPPORT. Sys2Proof/Laws/PerInstr.lean: facts about the instructions as syntax, one lemma per constructor. Family
EncodingShape: the bytes of an instruction are its opcode and as many operand bytes as its mode has (R36, R37), and its
opcode is one of the 41 (R39).
-/
namespace Sys2Proof.Laws

/-- The encoding has the instruction's length, starts with its opcode, and the opcode is one of R39. -/
def EncodingShape.Statement (i : Instr) : Prop :=
  (encode i).length = i.length ∧ (encode i).head? = some (opcode i) ∧ i.wellFormed opcodes = true

theorem EncodingShape.ldaImm (op8 : Byte) : EncodingShape.Statement (.ldaImm op8) := ⟨rfl, rfl, rfl⟩
theorem EncodingShape.ldaZp (op8 : Byte) : EncodingShape.Statement (.ldaZp op8) := ⟨rfl, rfl, rfl⟩
theorem EncodingShape.ldaZpX (op8 : Byte) : EncodingShape.Statement (.ldaZpX op8) := ⟨rfl, rfl, rfl⟩
theorem EncodingShape.ldaAbs (op16 : Word) : EncodingShape.Statement (.ldaAbs op16) := ⟨rfl, rfl, rfl⟩
theorem EncodingShape.ldaAbsX (op16 : Word) : EncodingShape.Statement (.ldaAbsX op16) := ⟨rfl, rfl, rfl⟩
theorem EncodingShape.ldaAbsY (op16 : Word) : EncodingShape.Statement (.ldaAbsY op16) := ⟨rfl, rfl, rfl⟩
theorem EncodingShape.ldaIzX (op8 : Byte) : EncodingShape.Statement (.ldaIzX op8) := ⟨rfl, rfl, rfl⟩
theorem EncodingShape.ldaIzY (op8 : Byte) : EncodingShape.Statement (.ldaIzY op8) := ⟨rfl, rfl, rfl⟩
theorem EncodingShape.ldxImm (op8 : Byte) : EncodingShape.Statement (.ldxImm op8) := ⟨rfl, rfl, rfl⟩
theorem EncodingShape.ldxZp (op8 : Byte) : EncodingShape.Statement (.ldxZp op8) := ⟨rfl, rfl, rfl⟩
theorem EncodingShape.ldxZpY (op8 : Byte) : EncodingShape.Statement (.ldxZpY op8) := ⟨rfl, rfl, rfl⟩
theorem EncodingShape.ldxAbs (op16 : Word) : EncodingShape.Statement (.ldxAbs op16) := ⟨rfl, rfl, rfl⟩
theorem EncodingShape.ldxAbsY (op16 : Word) : EncodingShape.Statement (.ldxAbsY op16) := ⟨rfl, rfl, rfl⟩
theorem EncodingShape.ldyImm (op8 : Byte) : EncodingShape.Statement (.ldyImm op8) := ⟨rfl, rfl, rfl⟩
theorem EncodingShape.ldyZp (op8 : Byte) : EncodingShape.Statement (.ldyZp op8) := ⟨rfl, rfl, rfl⟩
theorem EncodingShape.ldyZpX (op8 : Byte) : EncodingShape.Statement (.ldyZpX op8) := ⟨rfl, rfl, rfl⟩
theorem EncodingShape.ldyAbs (op16 : Word) : EncodingShape.Statement (.ldyAbs op16) := ⟨rfl, rfl, rfl⟩
theorem EncodingShape.ldyAbsX (op16 : Word) : EncodingShape.Statement (.ldyAbsX op16) := ⟨rfl, rfl, rfl⟩
theorem EncodingShape.staZp (op8 : Byte) : EncodingShape.Statement (.staZp op8) := ⟨rfl, rfl, rfl⟩
theorem EncodingShape.staZpX (op8 : Byte) : EncodingShape.Statement (.staZpX op8) := ⟨rfl, rfl, rfl⟩
theorem EncodingShape.staAbs (op16 : Word) : EncodingShape.Statement (.staAbs op16) := ⟨rfl, rfl, rfl⟩
theorem EncodingShape.staAbsX (op16 : Word) : EncodingShape.Statement (.staAbsX op16) := ⟨rfl, rfl, rfl⟩
theorem EncodingShape.staAbsY (op16 : Word) : EncodingShape.Statement (.staAbsY op16) := ⟨rfl, rfl, rfl⟩
theorem EncodingShape.staIzX (op8 : Byte) : EncodingShape.Statement (.staIzX op8) := ⟨rfl, rfl, rfl⟩
theorem EncodingShape.staIzY (op8 : Byte) : EncodingShape.Statement (.staIzY op8) := ⟨rfl, rfl, rfl⟩
theorem EncodingShape.stxZp (op8 : Byte) : EncodingShape.Statement (.stxZp op8) := ⟨rfl, rfl, rfl⟩
theorem EncodingShape.stxZpY (op8 : Byte) : EncodingShape.Statement (.stxZpY op8) := ⟨rfl, rfl, rfl⟩
theorem EncodingShape.stxAbs (op16 : Word) : EncodingShape.Statement (.stxAbs op16) := ⟨rfl, rfl, rfl⟩
theorem EncodingShape.styZp (op8 : Byte) : EncodingShape.Statement (.styZp op8) := ⟨rfl, rfl, rfl⟩
theorem EncodingShape.styZpX (op8 : Byte) : EncodingShape.Statement (.styZpX op8) := ⟨rfl, rfl, rfl⟩
theorem EncodingShape.styAbs (op16 : Word) : EncodingShape.Statement (.styAbs op16) := ⟨rfl, rfl, rfl⟩
theorem EncodingShape.tax : EncodingShape.Statement .tax := ⟨rfl, rfl, rfl⟩
theorem EncodingShape.tay : EncodingShape.Statement .tay := ⟨rfl, rfl, rfl⟩
theorem EncodingShape.txa : EncodingShape.Statement .txa := ⟨rfl, rfl, rfl⟩
theorem EncodingShape.tya : EncodingShape.Statement .tya := ⟨rfl, rfl, rfl⟩
theorem EncodingShape.tsx : EncodingShape.Statement .tsx := ⟨rfl, rfl, rfl⟩
theorem EncodingShape.txs : EncodingShape.Statement .txs := ⟨rfl, rfl, rfl⟩
theorem EncodingShape.pha : EncodingShape.Statement .pha := ⟨rfl, rfl, rfl⟩
theorem EncodingShape.php : EncodingShape.Statement .php := ⟨rfl, rfl, rfl⟩
theorem EncodingShape.pla : EncodingShape.Statement .pla := ⟨rfl, rfl, rfl⟩
theorem EncodingShape.plp : EncodingShape.Statement .plp := ⟨rfl, rfl, rfl⟩

end Sys2Proof.Laws
end

