-- ==== Sys2Proof/Machine/Asm.lean ====
section
/-!
DEFINITION. Sys2Proof/Machine/Asm.lean: the assembler spelling of an instruction (R46, R47 of 30_encoding.md). The spec
gives it from general knowledge, to write examples only (92 D16); the bytes of `encode` are authoritative.
-/
namespace Sys2Proof

/-- A four-bit digit in hexadecimal. -/
def hexDigit (n : Nat) : Char := (Nat.digitChar (n % 16)).toUpper

/-- `$nn`. -/
def hexByte (b : Byte) : String := String.ofList ['$', hexDigit (b.toNat / 16), hexDigit b.toNat]

/-- `$nnnn`: a four-digit operand selects an absolute mode, even for an address in the zero page. -/
def hexWord (w : Word) : String :=
  String.ofList ['$', hexDigit (w.toNat / 4096), hexDigit (w.toNat / 256), hexDigit (w.toNat / 16), hexDigit w.toNat]

/-- The mnemonic's letters (R47). -/
def Mnemonic.text : Mnemonic → String
  | .lda => "LDA" | .ldx => "LDX" | .ldy => "LDY" | .sta => "STA" | .stx => "STX" | .sty => "STY"
  | .tax => "TAX" | .tay => "TAY" | .txa => "TXA" | .tya => "TYA" | .tsx => "TSX" | .txs => "TXS"
  | .pha => "PHA" | .php => "PHP" | .pla => "PLA" | .plp => "PLP"

/-- The operand's digits: none, `$nn` or `$nnnn`. -/
def Instr.operandText (i : Instr) : String :=
  match operandBytes i with
  | [] => ""
  | [b] => hexByte b
  | lo :: hi :: _ => hexWord (wordOfBytes lo hi)

/-- The operand in the syntax of its mode (R46). -/
def Mode.decorate : Mode → String → String
  | .imp, _ => ""
  | .imm, t => " #" ++ t
  | .zp, t | .abs, t => " " ++ t
  | .zpx, t | .abx, t => " " ++ t ++ ",X"
  | .zpy, t | .aby, t => " " ++ t ++ ",Y"
  | .izx, t => " (" ++ t ++ ",X)"
  | .izy, t => " (" ++ t ++ "),Y"

/-- The instruction in assembler syntax (R46). -/
def Instr.asm (i : Instr) : String := i.mnemonic.text ++ i.mode.decorate i.operandText

end Sys2Proof
end

