-- ==== Sys2Proof/Tests/Slice0.lean ====
section
/-!
SUPPORT. Sys2Proof/Tests/Slice0.lean: tests of the model. Expected values come from spec/95_test_vectors.md (the vector is
named) or from a rule worked by hand; Z stands at bit 1 and N at bit 5 of the test core, one admissible placement. Then the
witnesses that the statements' hypotheses can be met together.
-/
namespace Sys2Proof.Tests
open Sys2Proof Sys2Proof.Machine Sys2Proof.Claims

/-- The arguments of the test core. -/
def par : Params := { zBit := 1, nBit := 5, flagMode := .sticky, zpPtrWrap := .zpWrap, implementedSet := opcodes }

/-- The same core in parity mode. -/
def parParity : Params := { par with flagMode := .parity }

/-- The same core with a linear pointer. -/
def parLinear : Params := { par with zpPtrWrap := .linear }

/-- A core without LDX abs,Y (H5). -/
def parNoBE : Params := { par with implementedSet := opcodes.filter fun op => op != 0xBE }

/-- A state after create with `bytes` at 0x0200, PC there, and further cells written. -/
def boot (q : Params) (bytes : List Byte) (cells : List (Word × Byte)) : State :=
  { State.create q (cells.foldl (fun m c => Memory.write m c.1 c.2) (Memory.preload 0x0200 bytes [])) with pc := 0x0200 }

/-- Whether the step completes in a state with the property. -/
def ok (s : State) (f : State → Bool) : Bool :=
  match step s with
  | .next t => t.halt == .running && f t
  | .fault _ => false
  | .refused _ => false

/-- Whether the step answers a next state with the property. -/
def nextIs (s : State) (f : State → Bool) : Bool :=
  match step s with
  | .next t => f t
  | .fault _ => false
  | .refused _ => false

/-- The byte of memory at an address after. -/
def at' (t : State) (addr : Word) : Byte := Memory.read t.mem addr

/-! ### Well-formedness: an ill-formed term for each check -/

theorem test_wf_outside_implemented_set : (Instr.ldxAbsY 0x3000).wellFormed parNoBE.implementedSet = false := by decide
theorem test_wf_inside_implemented_set : (Instr.ldxAbsY 0x3000).wellFormed par.implementedSet = true := by decide
theorem test_wf_n_at_the_top_bit : ({ par with nBit := 7 } : Params).wellFormed = false := by decide
theorem test_wf_n_adjacent_to_z : ({ par with nBit := 2 } : Params).wellFormed = false := by decide
theorem test_wf_set_not_a_subset : ({ par with implementedSet := [0xA9, 0xEA] } : Params).wellFormed = false := by decide
theorem test_wf_par : par.wellFormed = true := by decide
theorem test_wf_memory_rising : Memory.wf [(5, 1), (4, 1)] = false := by decide
theorem test_wf_memory_zero_cell : Memory.wf [(5, 0)] = false := by decide
theorem test_wf_memory_range : Memory.wf [(65536, 1)] = false := by decide
theorem test_placements : Config.flagPlacements.length = 36 := by decide

/-! ### Decoding: every constructor by its encoding of the opcode table, written out bit by bit -/

theorem test_decode_lda :
    decode opcodes [0b10101001, 0x34] = .ok (.ldaImm 0x34) [] ∧
    decode opcodes [0b10100101, 0x34] = .ok (.ldaZp 0x34) [] ∧
    decode opcodes [0b10110101, 0x34] = .ok (.ldaZpX 0x34) [] ∧
    decode opcodes [0b10101101, 0x34, 0x12] = .ok (.ldaAbs 0x1234) [] ∧
    decode opcodes [0b10111101, 0x34, 0x12] = .ok (.ldaAbsX 0x1234) [] ∧
    decode opcodes [0b10111001, 0x34, 0x12] = .ok (.ldaAbsY 0x1234) [] ∧
    decode opcodes [0b10100001, 0x34] = .ok (.ldaIzX 0x34) [] ∧
    decode opcodes [0b10110001, 0x34] = .ok (.ldaIzY 0x34) [] := by decide

theorem test_decode_ldx :
    decode opcodes [0b10100010, 0x34] = .ok (.ldxImm 0x34) [] ∧
    decode opcodes [0b10100110, 0x34] = .ok (.ldxZp 0x34) [] ∧
    decode opcodes [0b10110110, 0x34] = .ok (.ldxZpY 0x34) [] ∧
    decode opcodes [0b10101110, 0x34, 0x12] = .ok (.ldxAbs 0x1234) [] ∧
    decode opcodes [0b10111110, 0x34, 0x12] = .ok (.ldxAbsY 0x1234) [] := by decide

theorem test_decode_ldy :
    decode opcodes [0b10100000, 0x34] = .ok (.ldyImm 0x34) [] ∧
    decode opcodes [0b10100100, 0x34] = .ok (.ldyZp 0x34) [] ∧
    decode opcodes [0b10110100, 0x34] = .ok (.ldyZpX 0x34) [] ∧
    decode opcodes [0b10101100, 0x34, 0x12] = .ok (.ldyAbs 0x1234) [] ∧
    decode opcodes [0b10111100, 0x34, 0x12] = .ok (.ldyAbsX 0x1234) [] := by decide

theorem test_decode_sta :
    decode opcodes [0b10000101, 0x34] = .ok (.staZp 0x34) [] ∧
    decode opcodes [0b10010101, 0x34] = .ok (.staZpX 0x34) [] ∧
    decode opcodes [0b10001101, 0x34, 0x12] = .ok (.staAbs 0x1234) [] ∧
    decode opcodes [0b10011101, 0x34, 0x12] = .ok (.staAbsX 0x1234) [] ∧
    decode opcodes [0b10011001, 0x34, 0x12] = .ok (.staAbsY 0x1234) [] ∧
    decode opcodes [0b10000001, 0x34] = .ok (.staIzX 0x34) [] ∧
    decode opcodes [0b10010001, 0x34] = .ok (.staIzY 0x34) [] := by decide

theorem test_decode_stx :
    decode opcodes [0b10000110, 0x34] = .ok (.stxZp 0x34) [] ∧
    decode opcodes [0b10010110, 0x34] = .ok (.stxZpY 0x34) [] ∧
    decode opcodes [0b10001110, 0x34, 0x12] = .ok (.stxAbs 0x1234) [] := by decide

theorem test_decode_sty :
    decode opcodes [0b10000100, 0x34] = .ok (.styZp 0x34) [] ∧
    decode opcodes [0b10010100, 0x34] = .ok (.styZpX 0x34) [] ∧
    decode opcodes [0b10001100, 0x34, 0x12] = .ok (.styAbs 0x1234) [] := by decide

theorem test_decode_transfers :
    decode opcodes [0b10101010] = .ok .tax [] ∧
    decode opcodes [0b10101000] = .ok .tay [] ∧
    decode opcodes [0b10001010] = .ok .txa [] ∧
    decode opcodes [0b10011000] = .ok .tya [] ∧
    decode opcodes [0b10111010] = .ok .tsx [] ∧
    decode opcodes [0b10011010] = .ok .txs [] := by decide

theorem test_decode_stack :
    decode opcodes [0b01001000] = .ok .pha [] ∧
    decode opcodes [0b00001000] = .ok .php [] ∧
    decode opcodes [0b01101000] = .ok .pla [] ∧
    decode opcodes [0b00101000] = .ok .plp [] := by decide

/-- H2, H3, and 0x00: not recognised; a set without 0xBE (H5). -/
theorem test_decode_rejects :
    decode opcodes [0xEA] = .error (.unrecognizedOpcode 0xEA) ∧
    decode opcodes [0x89, 0x42] = .error (.unrecognizedOpcode 0x89) ∧
    decode opcodes [0x00] = .error (.unrecognizedOpcode 0x00) ∧
    decode parNoBE.implementedSet [0xBE, 0x00, 0x30] = .error (.unrecognizedOpcode 0xBE) ∧
    decode opcodes [0xAD, 0x69] = .error .truncated := by decide

/-- The dispatch table and the list of opcodes agree, and there are 41 of them (R39), so 215 are unrecognised (R42). -/
theorem test_dispatch_is_opcodes : ∀ op : Byte, (dispatch op).isSome = opcodes.contains op := by decide
theorem test_opcodes_count : opcodes.length = 41 ∧ opcodes.Nodup := by decide

theorem test_encode_lda_abs : encode (.ldaAbs 0x3569) = [0xAD, 0x69, 0x35] := by decide

/-- R46: `LDA $0042` is AD 42 00 and `LDA $42` is A5 42. -/
theorem test_asm :
    (Instr.ldaAbs 0x0042).asm = "LDA $0042" ∧ (Instr.ldaZp 0x42).asm = "LDA $42" ∧
    (Instr.ldaIzX 0x42).asm = "LDA ($42,X)" ∧ (Instr.staIzY 0x42).asm = "STA ($42),Y" ∧
    (Instr.ldxImm 0xFF).asm = "LDX #$FF" ∧ Instr.tax.asm = "TAX" ∧ (Instr.ldxAbsY 0x3569).asm = "LDX $3569,Y" := by
  decide

/-! ### One step of each opcode -/

/-- A1. -/
theorem test_lda_imm : ok (boot par [0xA9, 0x42] [])
    (fun t => t.a == 0x42 && t.pc == 0x0202 && t.p == 0x00) = true := by decide

/-- A2. -/
theorem test_lda_zp : ok (boot par [0xA5, 0x44] [(0x0044, 0x69)])
    (fun t => t.a == 0x69 && t.pc == 0x0202) = true := by decide

/-- A3. -/
theorem test_lda_zpx_wraps : ok { boot par [0xB5, 0xFF] [(0x0001, 0xAB), (0x0101, 0xCD)] with x := 0x02 }
    (fun t => t.a == 0xAB && t.p == 0x20 && t.pc == 0x0202) = true := by decide

/-- A6. -/
theorem test_lda_abs : ok (boot par [0xAD, 0x69, 0x35] [(0x3569, 0x55)])
    (fun t => t.a == 0x55 && t.pc == 0x0203) = true := by decide

/-- A7. -/
theorem test_lda_abx_page : ok { boot par [0xBD, 0xFF, 0x12] [(0x1300, 0x77)] with x := 0x01 }
    (fun t => t.a == 0x77 && t.pc == 0x0203) = true := by decide

/-- A8 (D7). -/
theorem test_lda_abx_wraps : ok { boot par [0xBD, 0xFF, 0xFF] [(0x0000, 0x5A)] with x := 0x01 }
    (fun t => t.a == 0x5A) = true := by decide

/-- A9. -/
theorem test_lda_aby : ok { boot par [0xB9, 0xFF, 0x00] [(0x0100, 0x3C)] with y := 0x01 }
    (fun t => t.a == 0x3C && t.p == 0x00) = true := by decide

/-- A10 (source E3). -/
theorem test_lda_izx : ok { boot par [0xA1, 0x42] [(0x0044, 0x69), (0x0045, 0x35), (0x3569, 0x55)] with x := 0x02 }
    (fun t => t.a == 0x55 && t.pc == 0x0202) = true := by decide

/-- A12, zp_wrap. -/
theorem test_lda_izx_zp_wrap : ok (boot par [0xA1, 0xFF] [(0x00FF, 0x20), (0x0000, 0x30), (0x0100, 0x40), (0x3020, 0x01), (0x4020, 0x02)])
    (fun t => t.a == 0x01) = true := by decide

/-- A12, linear. -/
theorem test_lda_izx_linear : ok (boot parLinear [0xA1, 0xFF] [(0x00FF, 0x20), (0x0000, 0x30), (0x0100, 0x40), (0x3020, 0x01), (0x4020, 0x02)])
    (fun t => t.a == 0x02) = true := by decide

/-- A14: the Y addition carries into the high byte. -/
theorem test_lda_izy : ok { boot par [0xB1, 0xF0] [(0x00F0, 0xFF), (0x00F1, 0x12), (0x1300, 0x08)] with y := 0x01 }
    (fun t => t.a == 0x08) = true := by decide

/-- A15 (D7). -/
theorem test_lda_izy_wraps : ok { boot par [0xB1, 0xF0] [(0x00F0, 0xF0), (0x00F1, 0xFF)] with y := 0x20, a := 0x01 }
    (fun t => t.a == 0x00 && t.p == 0x02) = true := by decide

/-- L7, parity. -/
theorem test_lda_parity_keeps_other_bits : ok { boot parParity [0xA9, 0x7F] [] with p := 0xFF }
    (fun t => t.p == 0xDD) = true := by decide

/-- L8. -/
theorem test_ldx_imm : ok (boot par [0xA2, 0xFF] [])
    (fun t => t.x == 0xFF && t.p == 0x20 && t.pc == 0x0202) = true := by decide

/-- R62, R51. -/
theorem test_ldx_zp : ok (boot par [0xA6, 0x44] [(0x0044, 0x69)])
    (fun t => t.x == 0x69 && t.a == 0x00) = true := by decide

/-- A5. -/
theorem test_ldx_zpy : ok { boot par [0xB6, 0xFF] [(0x0001, 0x11)] with y := 0x02 }
    (fun t => t.x == 0x11 && t.pc == 0x0202) = true := by decide

/-- R62, R54. -/
theorem test_ldx_abs : ok (boot par [0xAE, 0x69, 0x35] [(0x3569, 0x80)])
    (fun t => t.x == 0x80 && t.p == 0x20 && t.pc == 0x0203) = true := by decide

/-- H6. -/
theorem test_ldx_aby : ok (boot par [0xBE, 0x00, 0x30] [(0x3000, 0x05)])
    (fun t => t.x == 0x05 && t.pc == 0x0203) = true := by decide

/-- L10, the second step in sticky mode. -/
theorem test_ldy_imm : ok { boot par [0xA0, 0x00] [] with p := 0x20, y := 0x80 }
    (fun t => t.y == 0x00 && t.p == 0x22) = true := by decide

/-- R63, R51. -/
theorem test_ldy_zp : ok (boot par [0xA4, 0x44] [(0x0044, 0x69)])
    (fun t => t.y == 0x69 && t.x == 0x00) = true := by decide

/-- R63, R52: 80 + 80 wraps to 00. -/
theorem test_ldy_zpx : ok { boot par [0xB4, 0x80] [(0x0000, 0x12), (0x0100, 0x34)] with x := 0x80 }
    (fun t => t.y == 0x12) = true := by decide

/-- L9. -/
theorem test_ldy_abs : ok { boot par [0xAC, 0x00, 0x30] [] with y := 0x07 }
    (fun t => t.y == 0x00 && t.p == 0x02 && t.pc == 0x0203) = true := by decide

/-- P2: LDY $1236,X. -/
theorem test_ldy_abx : ok { boot par [0xBC, 0x36, 0x12] [(0x1239, 0x7F)] with x := 0x03 }
    (fun t => t.y == 0x7F) = true := by decide

/-- S2: a store sets no flag. -/
theorem test_sta_zp : ok (boot par [0x85, 0x10] [(0x0010, 0x77)])
    (fun t => at' t 0x0010 == 0x00 && t.p == 0x00 && t.mem.wf) = true := by decide

/-- R64, R52. -/
theorem test_sta_zpx : ok { boot par [0x95, 0xFF] [] with a := 0x69, x := 0x02 }
    (fun t => at' t 0x0001 == 0x69 && at' t 0x0101 == 0x00) = true := by decide

/-- S1. -/
theorem test_sta_abs : ok { boot par [0x8D, 0x00, 0x30] [] with a := 0x69 }
    (fun t => at' t 0x3000 == 0x69 && t.pc == 0x0203 && t.p == 0x00) = true := by decide

/-- S8. -/
theorem test_sta_abs_own_byte : ok { boot par [0x8D, 0x01, 0x02] [] with a := 0xFF }
    (fun t => at' t 0x0201 == 0xFF && t.pc == 0x0203) = true := by decide

/-- S5 (D7). -/
theorem test_sta_abx_wraps : ok { boot par [0x9D, 0xFF, 0xFF] [] with a := 0xAB, x := 0x02 }
    (fun t => at' t 0x0001 == 0xAB && t.pc == 0x0203) = true := by decide

/-- P4 (D7). -/
theorem test_sta_aby : ok { boot par [0x99, 0x02, 0xFF] [] with a := 0x55, y := 0xFF }
    (fun t => at' t 0x0001 == 0x55) = true := by decide

/-- S7. -/
theorem test_sta_izx : ok { boot par [0x81, 0x42] [(0x0044, 0x69), (0x0045, 0x35)] with a := 0xEE, x := 0x02 }
    (fun t => at' t 0x3569 == 0xEE) = true := by decide

/-- S6. -/
theorem test_sta_izy : ok { boot par [0x91, 0xF0] [(0x00F0, 0x34), (0x00F1, 0x12)] with a := 0x7F, y := 0x05 }
    (fun t => at' t 0x1239 == 0x7F) = true := by decide

/-- The example of R65. -/
theorem test_stx_zp : ok { boot par [0x86, 0x10] [] with x := 0x03 }
    (fun t => at' t 0x0010 == 0x03 && t.pc == 0x0202) = true := by decide

/-- S3. -/
theorem test_stx_zpy : ok { boot par [0x96, 0xEE] [] with x := 0x03, y := 0x7F }
    (fun t => at' t 0x006D == 0x03 && t.pc == 0x0202) = true := by decide

/-- R65, R54. -/
theorem test_stx_abs : ok { boot par [0x8E, 0x69, 0x35] [] with x := 0x03 }
    (fun t => at' t 0x3569 == 0x03 && t.pc == 0x0203) = true := by decide

/-- R66, R51. -/
theorem test_sty_zp : ok { boot par [0x84, 0x10] [] with y := 0x80 }
    (fun t => at' t 0x0010 == 0x80 && t.p == 0x00) = true := by decide

/-- S4. -/
theorem test_sty_zpx : ok { boot par [0x94, 0xFF] [] with x := 0x01, y := 0x80 }
    (fun t => at' t 0x0000 == 0x80 && t.p == 0x00) = true := by decide

/-- R66, R54. -/
theorem test_sty_abs : ok { boot par [0x8C, 0x69, 0x35] [] with y := 0x04 }
    (fun t => at' t 0x3569 == 0x04 && t.pc == 0x0203) = true := by decide

/-- T1. -/
theorem test_tax : ok { boot par [0xAA] [] with a := 0x80 }
    (fun t => t.x == 0x80 && t.a == 0x80 && t.p == 0x20 && t.pc == 0x0201) = true := by decide

/-- T2. -/
theorem test_tay : ok { boot par [0xA8] [] with y := 0x07 }
    (fun t => t.y == 0x00 && t.p == 0x02) = true := by decide

/-- T3, sticky. -/
theorem test_txa_sticky : ok { boot par [0x8A] [] with x := 0x7F, p := 0x02 }
    (fun t => t.a == 0x7F && t.p == 0x02) = true := by decide

/-- T3, parity. -/
theorem test_txa_parity : ok { boot parParity [0x8A] [] with x := 0x7F, p := 0x02 }
    (fun t => t.a == 0x7F && t.p == 0x00) = true := by decide

/-- T4. -/
theorem test_tya : ok { boot par [0x98] [] with y := 0xC0 }
    (fun t => t.a == 0xC0 && t.p == 0x20) = true := by decide

/-- T5. -/
theorem test_tsx : ok (boot par [0xBA] [])
    (fun t => t.x == 0xFF && t.sp == 0xFF && t.p == 0x20 && t.pc == 0x0201) = true := by decide

/-- T7: no flag. -/
theorem test_txs : ok (boot par [0x9A] [])
    (fun t => t.sp == 0x00 && t.p == 0x00) = true := by decide

/-- K1 (source E4). -/
theorem test_pha : ok { boot par [0x48] [] with a := 0x69 }
    (fun t => at' t 0x01FF == 0x69 && t.sp == 0xFE) = true := by decide

/-- K2. -/
theorem test_pha_wraps : ok { boot par [0x48] [] with a := 0x5A, sp := 0x00 }
    (fun t => at' t 0x0100 == 0x5A && t.sp == 0xFF) = true := by decide

/-- K9, the first step: every bit as it is. -/
theorem test_php : ok { boot par [0x08] [] with p := 0xA5 }
    (fun t => at' t 0x01FF == 0xA5 && t.p == 0xA5 && t.sp == 0xFE) = true := by decide

/-- K3. -/
theorem test_pla_wraps : ok (boot par [0x68] [(0x0100, 0x33)])
    (fun t => t.a == 0x33 && t.sp == 0x00 && t.p == 0x00) = true := by decide

/-- K5, sticky. -/
theorem test_pla_sticky : ok { boot par [0x68] [(0x01FF, 0x90)] with sp := 0xFE, p := 0x02 }
    (fun t => t.a == 0x90 && t.sp == 0xFF && t.p == 0x22) = true := by decide

/-- K7. -/
theorem test_plp_clears : ok { boot par [0x28] [] with sp := 0xFD, p := 0xFF }
    (fun t => t.p == 0x00 && t.sp == 0xFE) = true := by decide

/-- K10. -/
theorem test_plp_wraps : ok (boot par [0x28] [(0x0100, 0x0C)])
    (fun t => t.p == 0x0C && t.sp == 0x00) = true := by decide

/-- A16 (D8): the high byte of an operand at 0xFFFE comes from 0x0000. -/
theorem test_operand_wraps :
    ok { State.create par [(0x0000, 0x12), (0x1234, 0x44), (0xFFFE, 0xAD), (0xFFFF, 0x34)] with pc := 0xFFFE }
    (fun t => t.a == 0x44 && t.pc == 0x0001) = true := by decide

/-- A17 (D8). -/
theorem test_immediate_wraps : ok { State.create par [(0x0000, 0x66), (0xFFFF, 0xA9)] with pc := 0xFFFF }
    (fun t => t.a == 0x66 && t.pc == 0x0001) = true := by decide

/-! ### The halt -/

/-- H2. -/
theorem test_halt : nextIs (boot par [0xEA] []) (fun t => t == { boot par [0xEA] [] with halt := .halted 0xEA }) = true := by
  decide

/-- H3: no STA immediate. -/
theorem test_halt_89 : nextIs (boot par [0x89, 0x42] []) (fun t => t.halt == .halted 0x89 && t.pc == 0x0200) = true := by
  decide

/-- H5. -/
theorem test_halt_outside_set : nextIs (boot parNoBE [0xBE, 0x00, 0x30] []) (fun t => t.halt == .halted 0xBE) = true := by
  decide

/-- H4. -/
theorem test_halted_again : step { boot par [0xA9, 0x42] [] with halt := .halted 0xEA } = .fault (.halted 0xEA) := rfl

/-- H1, from the reset state itself. -/
theorem test_reset_halts : step State.reset = .next { State.reset with halt := .halted 0x00 } := rfl

/-! ### Placing a table word -/

theorem test_table_word : decodeTableWord 8 0xAD = some (.ldaAbs 0x0000) ∧ decodeTableWord 16 0x42A9 = some (.ldaImm 0x42) ∧
    decodeTableWord 24 0x35698D = some (.staAbs 0x3569) ∧ decodeTableWord 8 0xEA = none := by decide

theorem test_with_fetch_word :
    step (State.reset.withFetchWord 24 0x35698D) = exec (.staAbs 0x3569) (State.reset.withFetchWord 24 0x35698D) := rfl

theorem test_with_fetch_word_a9 :
    step (State.reset.withFetchWord 8 0xA9) = exec (.ldaImm 0x00) (State.reset.withFetchWord 8 0xA9) := rfl

/-! ### Witnesses: for each statement with hypotheses, a state and operands that meet all of them -/

/-- A state that runs LDA #$80 at 0x0200 with Z set. -/
def w1 : State := { boot par [0xA9, 0x80] [] with p := 0x02 }

/-- The state of P5 at the store: STA $0205 at 0x0202 over the next opcode, with A = 0xAA (TAX). -/
def w2 : State := { boot par [0xA9, 0xAA, 0x8D, 0x05, 0x02] [] with pc := 0x0202, a := 0xAA }

/-- A state that runs STA $0201 at 0x0200. -/
def w3 : State := { boot par [0x8D, 0x01, 0x02] [] with a := 0xFF }

/-- PLP at 0x0200 pulling 0x00 over P = 0xFF. -/
def w4 : State := { boot par [0x28] [] with p := 0xFF }

theorem witness_ResetSatisfiesTheInvariant : par.wellFormed = true ∧ Memory.wf [(0x0000, 0xA9), (0xFFFF, 0x01)] = true := by
  decide

theorem witness_StepKeepsTheInvariant : (w3.mem.wf = true ∧ w3.params.wellFormed = true) ∧ nextIs w3 (fun _ => true) = true := by
  decide

theorem witness_StepKeepsTheInvariant_halting :
    State.Inv (boot par [0xEA] []) ∧ nextIs (boot par [0xEA] []) (fun t => t.halt == .halted 0xEA) = true :=
  ⟨⟨by decide, by decide⟩, by decide⟩

/-- Whether `k` steps answer a next state with the property. -/
def runIs (k : Nat) (s : State) (f : State → Bool) : Bool :=
  match run k s with
  | .next t => f t
  | .fault _ => false
  | .refused _ => false

theorem witness_RunKeepsTheInvariant : w2.mem.wf = true ∧ w2.params.wellFormed = true ∧ runIs 2 w2 (fun _ => true) = true := by
  decide

theorem witness_CanonicalMemories : Memory.wf [(3, 1), (7, 2)] = true ∧ Memory.wf (Memory.write [(3, 1)] 7 2) = true ∧
    ∀ b : Word, Memory.read [(3, 1), (7, 2)] b = Memory.read (Memory.write [(3, 1)] 7 2) b := ⟨by decide, by decide, fun _ => rfl⟩

theorem witness_DecodeOfEncode : (Instr.staAbsX 0xFFFF).wellFormed parNoBE.implementedSet = true := by decide

theorem witness_DecodedBytes_each_format : decode opcodes [0xAA, 0x01] = .ok .tax [0x01] ∧
    decode opcodes [0xA9, 0x42] = .ok (.ldaImm 0x42) [] ∧ decode opcodes [0x9D, 0xFF, 0xFF, 0x00] = .ok (.staAbsX 0xFFFF) [0x00] := by
  decide

theorem witness_RecognisedOpcodes_rejected : ¬(opcodes.contains (0xEA : Byte) = true ∧ (0xEA : Byte).toNat ∈ opsRecognised) ∧
    ¬(parNoBE.implementedSet.contains (0xBE : Byte) = true ∧ (0xBE : Byte).toNat ∈ opsRecognised) := by decide

theorem witness_OpcodeTable : decode opcodes [0xBE, 0x00, 0x30] = .ok (.ldxAbsY 0x3000) [] := by decide

theorem witness_OpcodeByteAlone : decode opcodes (0xA9 :: [0x42]) = .ok (.ldaImm 0x42) [] ∧
    decode parNoBE.implementedSet (0xA9 :: [0x43, 0x01]) = .ok (.ldaImm 0x43) [0x01] := by decide

theorem witness_StepRunsTheDecodedInstruction : w1.halt = .running ∧
    decode w1.params.implementedSet [byteAt w1 w1.pc.toNat, byteAt w1 ((w1.pc.toNat + 1) % 65536),
      byteAt w1 ((w1.pc.toNat + 2) % 65536)] = .ok (.ldaImm 0x80) [0x00] := by decide

theorem witness_StepRunsTheInstructionInMemory : w3.halt = .running ∧
    (Instr.staAbs 0x0201).wellFormed w3.params.implementedSet = true ∧
    ∀ k b, (encode (.staAbs 0x0201))[k]? = some b → byteAt w3 ((w3.pc.toNat + k) % 65536) = b := by
  refine ⟨by decide, by decide, fun k b h => ?_⟩
  match k with
  | 0 | 1 | 2 => cases h; decide
  | k + 3 => cases h

theorem witness_UnrecognisedOpcode_outside_the_table : (boot par [0xEA] []).halt = .running ∧
    opAt (boot par [0xEA] []) ∉ opsRecognised := by decide

theorem witness_UnrecognisedOpcode_outside_the_set : (boot parNoBE [0xBE] []).halt = .running ∧
    (boot parNoBE [0xBE] []).params.implementedSet.contains (Memory.read (boot parNoBE [0xBE] []).mem (boot parNoBE [0xBE] []).pc) = false := by
  decide

theorem witness_HaltedStateIsTerminal : ({ w1 with halt := .halted 0xEA } : State).halt = .halted 0xEA := rfl

theorem witness_StepReports_each_case : w1.halt = .running ∧ opAt w1 ∈ opsRecognised ∧
    (boot par [0x00] []).halt = .running ∧ opAt (boot par [0x00] []) ∉ opsRecognised := by decide

theorem witness_ByteOrder_each_length : fetchInstr w1 = some (.ldaImm 0x80) ∧ (Instr.ldaImm 0x80).length = 2 ∧
    fetchInstr w3 = some (.staAbs 0x0201) ∧ (Instr.staAbs 0x0201).length = 3 := by decide

theorem witness_CompletedStep_runs : nextIs w1 (fun t => t.halt == .running) = true := by decide

theorem witness_CompletedStep_halts : nextIs (boot par [0xEA] []) (fun t => t.halt != .running) = true := by decide

theorem witness_RunAdvancesPc : runIs 2 w2 (fun t => t.halt == .running) = true := by decide

/-- A push at 0x0110, code in the stack page, with SP designating the next opcode (R101). -/
def w5 (op : Byte) : State := { State.create par [(0x0110, op)] with pc := 0x0110, sp := 0x11, a := 0xAA, p := 0xEA }

theorem witness_StoreIsSeen : w2.halt = .running ∧ fetchInstr w2 = some (.staAbs 0x0205) ∧
    storeOf (.staAbs 0x0205) w2 = some (0x0205, 0xAA) ∧
    decode w2.params.implementedSet (bytesAfterStore 0x0205 0xAA w2 0x0205) = .ok .tax [0x00, 0x00] := by decide

theorem witness_StoreIsSeen_pha : (w5 0x48).halt = .running ∧ fetchInstr (w5 0x48) = some .pha ∧
    storeOf .pha (w5 0x48) = some (0x0111, 0xAA) ∧
    decode (w5 0x48).params.implementedSet (bytesAfterStore 0x0111 0xAA (w5 0x48) 0x0111) = .ok .tax [0x00, 0x00] := by decide

theorem witness_StoreIsSeen_php_halts : (w5 0x08).halt = .running ∧ fetchInstr (w5 0x08) = some .php ∧
    storeOf .php (w5 0x08) = some (0x0111, 0xEA) ∧
    decode (w5 0x08).params.implementedSet (bytesAfterStore 0x0111 0xEA (w5 0x08) 0x0111) = .error (.unrecognizedOpcode 0xEA) := by
  decide

theorem witness_StoreIntoItsOwnBytes : 1 < 3 ∧ w3.halt = .running ∧ w3.params.implementedSet.contains 0x8D = true ∧
    opAt w3 = 0x8D ∧ read16 w3 (add16 w3.pc 1) = add16 w3.pc (BitVec.ofNat 16 1) := by decide

theorem witness_SetZNIsSticky : w1.params.flagMode = .sticky := rfl

theorem witness_SetZNInParityMode : (boot parParity [] []).params.flagMode = .parity ∧
    (boot parParity [] []).params.zBit ≠ (boot parParity [] []).params.nBit := by decide

theorem witness_OnlyPlpClears : w4.params.flagMode = .sticky ∧ w4.p.getLsbD (0 : Fin 8).val = true ∧
    nextIs w4 (fun t => t.p.getLsbD (0 : Fin 8).val == false) = true := by decide

theorem witness_OtherStatusBits : (0 : Fin 8) ≠ w4.params.zBit ∧ (0 : Fin 8) ≠ w4.params.nBit ∧
    nextIs w4 (fun t => t.p.getLsbD (0 : Fin 8).val != w4.p.getLsbD (0 : Fin 8).val) = true := by decide

theorem witness_NoInstructionReadsAFlag : nextIs w1 (fun _ => true) = true ∧ opAt w1 ≠ 0x08 ∧
    nextIs (boot par [0x08] []) (fun _ => true) = true ∧ opAt (boot par [0x08] []) = 0x08 := by decide

theorem witness_GeneralRegisters : nextIs w1 (fun t => t.a != w1.a) = true ∧
    nextIs (boot par [0xA2, 0x01] []) (fun t => t.x != 0x00) = true ∧
    nextIs (boot par [0xA0, 0x01] []) (fun t => t.y != 0x00) = true := by decide

theorem witness_StackPointer : nextIs (boot par [0x48] []) (fun t => t.sp != 0xFF) = true ∧
    nextIs (boot par [0x08] []) (fun t => t.sp != 0xFF) = true ∧ nextIs (boot par [0x68] []) (fun t => t.sp != 0xFF) = true ∧
    nextIs (boot par [0x28] []) (fun t => t.sp != 0xFF) = true ∧ nextIs (boot par [0x9A] []) (fun t => t.sp != 0xFF) = true := by
  decide

theorem witness_StepChangesOneByte : nextIs w3 (fun t => Memory.read t.mem 0x0201 != Memory.read w3.mem 0x0201) = true := by
  decide

theorem witness_ZeroPagePointer_agrees_below : (0xFE : Byte).toNat ≠ 0xFF := by decide

theorem witness_ImmediateOperand :
    (((0xA9 : Byte), Reg.a) ∈ [((0xA9 : Byte), Reg.a), (0xA2, .x), (0xA0, .y)]) ∧ w1.halt = .running ∧
    w1.params.implementedSet.contains 0xA9 = true ∧ Memory.read w1.mem w1.pc = 0xA9 := by decide

theorem witness_ImmediateOperand_x_and_y :
    Memory.read (boot par [0xA2, 0x01] []).mem 0x0200 = 0xA2 ∧ (boot par [0xA2, 0x01] []).params.implementedSet.contains 0xA2 = true ∧
    Memory.read (boot par [0xA0, 0x01] []).mem 0x0200 = 0xA0 ∧ (boot par [0xA0, 0x01] []).params.implementedSet.contains 0xA0 = true := by
  decide

theorem witness_StackIsLastInFirstOut : ([0x11, 0x22] : List Byte).length ≤ 256 ∧
    (List.replicate 256 (0x11 : Byte)).length ≤ 256 := ⟨by decide, List.length_replicate.le⟩

theorem witness_The257thPush : (List.replicate 255 (0x11 : Byte)).length = 255 := List.length_replicate

theorem witness_PushesStay : regionOf 0x0200 ≠ .stackPage ∧ regionOf 0x00FF ≠ .stackPage ∧ regionOf 0x0100 = .stackPage ∧
    regionOf 0x01FF = .stackPage := by decide

end Sys2Proof.Tests
end

section
/-!
SUPPORT for the proofs: words and their bytes as numbers (R4, R25), the inversion of the decoder (R36 to R42)
and the bytes an instruction is fetched from (R37, R38, R45).
-/
namespace Sys2Proof

theorem zext16_toNat (b : Byte) : (zext16 b).toNat = b.toNat :=
  BitVec.toNat_setWidth_of_le (by decide)

theorem add16_toNat (a b : Word) : (add16 a b).toNat = (a.toNat + b.toNat) % 65536 := BitVec.toNat_add a b

/-- The two bytes do not overlap, so the `|` of R4 is a sum. -/
theorem wordOfBytes_toNat (lo hi : Byte) : (wordOfBytes lo hi).toNat = lo.toNat + 256 * hi.toNat := by
  have hlo := lo.isLt
  have hhi := hi.isLt
  have hfit : hi.toNat <<< 8 % 65536 = hi.toNat <<< 8 := Nat.mod_eq_of_lt (by omega)
  calc (wordOfBytes lo hi).toNat
      = hi.toNat <<< 8 ||| lo.toNat := by simp [wordOfBytes, zext16_toNat, hfit, Nat.or_comm]
    _ = hi.toNat <<< 8 + lo.toNat := (Nat.shiftLeft_add_eq_or_of_lt hlo hi.toNat).symm
    _ = lo.toNat + 256 * hi.toNat := by omega

/-- The operand bytes are the rest of the instruction's length (R36, R37). -/
theorem length_operandBytes (i : Instr) : (operandBytes i).length = i.length - 1 := by cases i <;> rfl

/-- Everything a decoded instruction says of the bytes it was decoded from: its opcode is in the set, and they begin with
its encoding. -/
theorem decode_inv {set bytes rest : List Byte} {i : Instr} (h : decode set bytes = .ok i rest) :
    i.wellFormed set = true ∧ bytes = encode i ++ rest := by
  unfold decode at h
  split at h
  case h_1 => cases h
  case h_2 op tail =>
    split at h
    case isFalse => cases h
    case isTrue hset =>
      split at h
      case h_1 => cases h
      case h_2 j hd =>
        obtain ⟨rfl, hops⟩ : op = opcode j ∧ operandBytes j = [] := dispatch_fits hd
        cases h
        exact ⟨hset, by simp [encode, hops]⟩
      case h_3 mk hd =>
        split at h
        case h_2 => cases h
        case h_1 op8 tail =>
          obtain ⟨rfl, hops⟩ := dispatch_fits hd op8
          cases h
          exact ⟨hset, by simp [encode, hops]⟩
      case h_4 mk hd =>
        split at h
        case h_2 => cases h
        case h_1 lo hi tail =>
          obtain ⟨rfl, hops⟩ := dispatch_fits hd (wordOfBytes lo hi)
          cases h
          exact ⟨hset, by simp [encode, hops, lowByte_wordOfBytes, highByte_wordOfBytes]⟩

end Sys2Proof

namespace Sys2Proof.Machine

/-- What is fetched is decoded from the three bytes at PC. -/
theorem decode_of_fetchInstr {s : State} {i : Instr} (h : fetchInstr s = some i) :
    ∃ rest, decode s.params.implementedSet (fetchBytes s) = .ok i rest := by
  unfold fetchInstr at h
  split at h
  case h_1 j rest hd => exact ⟨rest, by simpa [hd] using h⟩
  case h_2 => cases h

theorem add16_add16_one_one (a : Word) : add16 (add16 a 1) 1 = add16 a 2 := BitVec.add_assoc a 1 1

/-- The operand of a fetched instruction is as many of the bytes after the opcode as its length says. -/
theorem operandBytes_of_fetchInstr {s : State} {i : Instr} (h : fetchInstr s = some i) :
    operandBytes i = [readMem s (add16 s.pc 1), readMem s (add16 (add16 s.pc 1) 1)].take (i.length - 1) := by
  obtain ⟨rest, hd⟩ := decode_of_fetchInstr h
  have hbytes : fetchBytes s = opcode i :: (operandBytes i ++ rest) := (decode_inv hd).2
  have htail : [readMem s (add16 s.pc 1), readMem s (add16 s.pc 2)] = operandBytes i ++ rest := (List.cons.inj hbytes).2
  rw [add16_add16_one_one, htail, List.take_left' (length_operandBytes i)]

/-- Both bytes of `Read16`, the second at the next address modulo 65536 (92 D7). -/
theorem read16_toNat (s : State) (addr : Word) :
    (read16 s addr).toNat = (readMem s addr).toNat + 256 * (readMem s (add16 addr 1)).toNat :=
  wordOfBytes_toNat _ _

@[simp] theorem lowByte_read16 (s : State) (addr : Word) : lowByte (read16 s addr) = readMem s addr :=
  lowByte_wordOfBytes _ _

@[simp] theorem highByte_read16 (s : State) (addr : Word) : highByte (read16 s addr) = readMem s (add16 addr 1) :=
  highByte_wordOfBytes _ _

end Sys2Proof.Machine
end

section
/-!
PROOF of O13: the byte order of Read16 and of the operand (R4, R25, R38).
-/
open Sys2Proof Sys2Proof.Machine

namespace Sys2Proof.Claims

theorem byteAt_toNat (s : State) (addr : Word) : byteAt s addr.toNat = readMem s addr := by
  simp [byteAt, readMem]

/-- Settles O13: Read16 and the operand bytes are both read from the bytes at an address and at the next one. -/
theorem byteOrderIsLittleEndian : Obligations.ByteOrderIsLittleEndian := by
  refine ⟨wordOfBytes_toNat, fun s addr => ?read16, fun s i hf => ?operand⟩
  case read16 =>
    have hnext : (addr.toNat + 1) % 65536 = (add16 addr 1).toNat := (add16_toNat addr 1).symm
    rw [hnext, byteAt_toNat, byteAt_toNat, read16_toNat]
  case operand =>
    have hops := operandBytes_of_fetchInstr hf
    exact ⟨fun hlen => by simpa [hlen] using hops, fun hlen => by simpa [hlen] using hops⟩

end Sys2Proof.Claims
end

section
/-!
SUPPORT for the proofs: what each instruction does to each field of the state, the inversion of a step in these terms, and
when a fetch succeeds (R20, R45, R60).
-/
namespace Sys2Proof.Machine
open Sys2Proof.Claims

/-- The state that `exec i s` answers (`exec_eq`). -/
def afterExec (i : Instr) (s : State) : State := stateAfter s (exec i s)

/-- Every instruction completes (R83). -/
theorem exec_eq (i : Instr) (s : State) : exec i s = .next (afterExec i s) := by cases i <;> rfl

@[simp] theorem afterExec_halt (i : Instr) (s : State) : (afterExec i s).halt = s.halt := by cases i <;> rfl

@[simp] theorem afterExec_params (i : Instr) (s : State) : (afterExec i s).params = s.params := by cases i <;> rfl

@[simp] theorem afterExec_pc (i : Instr) (s : State) :
    (afterExec i s).pc = add16 s.pc (BitVec.ofNat 16 i.length) := by cases i <;> rfl

/-- The one write of memory is that of `storeOf` (R27). -/
theorem afterExec_mem (i : Instr) (s : State) :
    (afterExec i s).mem = (storeOf i s).elim s.mem fun cell => Memory.write s.mem cell.1 cell.2 := by cases i <;> rfl

/-- What a step that answers a next state can have done, in terms of `afterExec`. -/
theorem step_next_cases {s t : State} (h : step s = .next t) :
    s.halt = .running ∧ ((∃ i, fetchInstr s = some i ∧ t = afterExec i s) ∨
      (fetchInstr s = none ∧ t = raiseUnrecognizedOpcode s)) := by
  obtain ⟨hrun, ⟨i, hf, he⟩ | hnone⟩ := step_cases h
  · rw [exec_eq] at he
    cases he
    exact ⟨hrun, .inl ⟨i, hf, rfl⟩⟩
  · exact ⟨hrun, .inr hnone⟩

/-- A fetched instruction has the opcode at PC, one of IMPLEMENTED_SET. -/
theorem opcode_of_fetchInstr {s : State} {i : Instr} (h : fetchInstr s = some i) :
    readMem s s.pc = opcode i ∧ i.wellFormed s.params.implementedSet = true := by
  obtain ⟨rest, hd⟩ := decode_of_fetchInstr h
  obtain ⟨hset, hbytes⟩ := decode_inv hd
  exact ⟨(List.cons.inj hbytes).1, hset⟩

theorem opAt_of_fetchInstr {s : State} {i : Instr} (h : fetchInstr s = some i) : opAt s = (opcode i).toNat :=
  congrArg BitVec.toNat (opcode_of_fetchInstr h).1

/-- The dispatch table has an entry for exactly the 41 opcodes of R39. -/
theorem dispatch_isSome_iff (op : Byte) : (dispatch op).isSome = true ↔ op.toNat ∈ opsRecognised := by
  revert op; decide

/-- Three bytes are enough for every recognised opcode (R36, R42). -/
theorem decode_three_ok_iff (set : List Byte) (op lo hi : Byte) :
    (∃ i rest, decode set [op, lo, hi] = .ok i rest) ↔ set.contains op = true ∧ op.toNat ∈ opsRecognised := by
  rw [← dispatch_isSome_iff]
  by_cases hset : op ∈ set
  · rcases hd : dispatch op with _ | ⟨i⟩ | mk | mk <;> simp [decode, hd, hset]
  · simp [decode, hset]

/-- A fetch succeeds exactly on a recognised opcode of the core's IMPLEMENTED_SET (R41, R42). -/
theorem exists_fetchInstr_iff (s : State) :
    (∃ i, fetchInstr s = some i) ↔
      opAt s ∈ opsRecognised ∧ s.params.implementedSet.contains (Memory.read s.mem s.pc) = true := by
  have hdecode : (∃ i, fetchInstr s = some i) ↔
      ∃ i rest, decode s.params.implementedSet (fetchBytes s) = .ok i rest :=
    ⟨fun ⟨i, hf⟩ => ⟨i, decode_of_fetchInstr hf⟩, fun ⟨i, rest, hd⟩ => ⟨i, by simp [fetchInstr, hd]⟩⟩
  rw [hdecode, fetchBytes, decode_three_ok_iff]
  exact and_comm

end Sys2Proof.Machine
end

section
/-!
PROOF of O3 and O2: the invariant holds at reset and every step keeps it (R12, R22, R29, R41).
-/
open Sys2Proof Sys2Proof.Machine

namespace Sys2Proof.Claims

theorem afterExec_mem_wf (i : Instr) (s : State) (hwf : s.mem.wf = true) : (afterExec i s).mem.wf = true := by
  rw [afterExec_mem]
  cases storeOf i s with
  | none => exact hwf
  | some cell => exact Memory.write_wf s.mem cell.1 cell.2 hwf

/-- Settles O3: an instruction writes memory by `Memory.write` only, which keeps the canonical form, and a halt writes
neither memory nor the arguments. -/
theorem stepKeepsTheInvariant : Obligations.StepKeepsTheInvariant := by
  rintro s t ⟨hmem, hpar⟩ hstep
  obtain ⟨-, ⟨i, -, rfl⟩ | ⟨-, rfl⟩⟩ := step_next_cases hstep
  · exact ⟨⟨afterExec_mem_wf i s hmem, by simpa using hpar⟩, afterExec_params i s⟩
  · exact ⟨⟨hmem, hpar⟩, rfl⟩

/-- Every listed placement passed the filter of R12. -/
theorem admissible_of_mem_flagPlacements {zn : Fin 8 × Fin 8} (h : zn ∈ Config.flagPlacements) :
    admissiblePlacement zn.1 zn.2 = true := by
  simp only [Config.flagPlacements, List.mem_flatMap, List.mem_map, List.mem_filter] at h
  obtain ⟨z, -, n, ⟨-, hadm⟩, rfl⟩ := h
  exact hadm

/-- Whatever the free index of log 2 is. -/
theorem flagPlacement_admissible : admissiblePlacement Config.flagPlacement.1 Config.flagPlacement.2 = true := by
  unfold Config.flagPlacement
  rw [List.getD_eq_getElem?_getD]
  cases hget : Config.flagPlacements[Config.flagPlacementIndex.val]? with
  | none => rfl
  | some zn => exact admissible_of_mem_flagPlacements (List.mem_of_getElem? hget)

theorem defaultParams_wellFormed : defaultParams.wellFormed = true := by
  have hset : defaultParams.setWellFormed = true := by decide
  exact Bool.and_eq_true_iff.mpr ⟨flagPlacement_admissible, hset⟩

/-- Settles O2: `create` takes over the arguments and the memory, and those of the reset state meet the invariant. -/
theorem resetSatisfiesTheInvariant : Obligations.ResetSatisfiesTheInvariant :=
  ⟨⟨Memory.nil_wf, defaultParams_wellFormed⟩, fun _ _ hpar hmem => ⟨hmem, hpar⟩⟩

end Sys2Proof.Claims
end

section
/-!
PROOF of O18: a running step reports completed or halted(op) (R20, R45, R86).
-/
open Sys2Proof Sys2Proof.Machine

namespace Sys2Proof.Claims

/-- Settles O18, by whether the fetch succeeds. -/
theorem stepReportsCompletedOrHalted : Obligations.StepReportsCompletedOrHalted := by
  intro s hrun
  rw [byteAt_toNat]
  have hiff := exists_fetchInstr_iff s
  cases hf : fetchInstr s with
  | some i =>
    have hstep : step s = .next (afterExec i s) := (step_of_fetch hrun hf).trans (exec_eq i s)
    have hreport : reportOf (.next (afterExec i s)) = some .completed := by simp [reportOf, hrun]
    rw [if_pos (hiff.mp ⟨i, hf⟩), hstep]
    exact ⟨⟨_, rfl⟩, hreport⟩
  | none =>
    rw [if_neg fun hrec => by simpa [hf] using hiff.mpr hrec, step_of_no_fetch hrun hf]
    exact ⟨⟨_, rfl⟩, rfl⟩

end Sys2Proof.Claims
end

section
/-!
PROOF of O24 and O25: SetZN bit by bit in both flag modes (R14, R15), and the support it gives to the statements about P.
-/
open Sys2Proof Sys2Proof.Machine

namespace Sys2Proof.Claims

theorem getLsbD_bit (i k : Fin 8) : (bit i).getLsbD k.val = (k == i) := by revert i k; decide

theorem getLsbD_flagMask (c : Bool) (i k : Fin 8) : (flagMask c i).getLsbD k.val = (k == i && c) := by
  cases c with
  | false => simp [flagMask]
  | true => simpa [flagMask] using getLsbD_bit i k

/-- The condition of Z as `zn` writes it. -/
theorem beq_zero_eq_toNat (v : Byte) : (v == 0#8) = (v.toNat == 0) := by
  rw [Bool.eq_iff_iff, beq_iff_eq, beq_iff_eq, BitVec.toNat_eq]
  rfl

/-- The condition of N as `zn` writes it. -/
theorem msb_eq_toNat (v : Byte) : v.msb = decide (128 ≤ v.toNat) := BitVec.msb_eq_decide v

/-- The masks of R14 and R15 are the bit-by-bit rule, whatever the places of Z and N. -/
theorem getLsbD_statusZN (par : Params) (v p : Byte) (k : Fin 8) :
    (statusZN par v p).getLsbD k.val = zn par v p k := by
  unfold statusZN zn
  cases par.flagMode with
  | sticky =>
    simp only [stickyZN, BitVec.getLsbD_or, getLsbD_flagMask, beq_zero_eq_toNat, msb_eq_toNat, Bool.or_assoc]
  | parity =>
    simp only [parityZN, BitVec.getLsbD_or, BitVec.getLsbD_and, BitVec.getLsbD_not, getLsbD_bit, getLsbD_flagMask,
      beq_zero_eq_toNat, msb_eq_toNat]
    by_cases hk : k = par.zBit ∨ k = par.nBit
    · rcases hk with rfl | rfl <;> simp
    · obtain ⟨hz, hn⟩ := not_or.mp hk
      simp [hz, hn, beq_false_of_ne hz, beq_false_of_ne hn]

theorem flagsFrom_statusZN (par : Params) (v p : Byte) : FlagsFrom par v p (statusZN par v p) :=
  getLsbD_statusZN par v p

/-- Sticky mode: a bit is kept, or its condition holds. -/
theorem zn_sticky {par : Params} (h : par.flagMode = .sticky) (v p : Byte) (k : Fin 8) :
    zn par v p k = true ↔
      p.getLsbD k.val = true ∨ (k = par.zBit ∧ v.toNat = 0) ∨ (k = par.nBit ∧ 128 ≤ v.toNat) := by
  simp [zn, h]

/-- In either mode the bits other than Z and N are kept. -/
theorem zn_other {par : Params} {k : Fin 8} (hz : k ≠ par.zBit) (hn : k ≠ par.nBit) (v p : Byte) :
    zn par v p k = p.getLsbD k.val := by
  unfold zn
  cases par.flagMode with
  | sticky => simp [hz, hn]
  | parity => simp [hz, hn]

theorem zn_parity_zBit {par : Params} (h : par.flagMode = .parity) (hne : par.zBit ≠ par.nBit) (v p : Byte) :
    zn par v p par.zBit = true ↔ v.toNat = 0 := by
  simp [zn, h, hne]

theorem zn_parity_nBit {par : Params} (h : par.flagMode = .parity) (hne : par.zBit ≠ par.nBit) (v p : Byte) :
    zn par v p par.nBit = true ↔ 128 ≤ v.toNat := by
  simp [zn, h, hne.symm]

/-- Settles O24: SetZN in sticky mode, from the bits of `statusZN`. -/
theorem setZNIsSticky : Obligations.SetZNIsSticky := by
  refine fun v s hmode => ⟨fun k => ?_, _, rfl⟩
  rw [setZN_p, getLsbD_statusZN]
  exact zn_sticky hmode v s.p k

/-- Settles O25: SetZN in parity mode, from the bits of `statusZN`. -/
theorem setZNInParityMode : Obligations.SetZNInParityMode := by
  intro v s hmode hne
  simp only [setZN_p, getLsbD_statusZN]
  exact ⟨zn_parity_zBit hmode hne v s.p, zn_parity_nBit hmode hne v s.p, fun _ hz hn => zn_other hz hn v s.p, _, rfl⟩

end Sys2Proof.Claims
end

section
/-!
PROOF of O27, O26, O28 and O29: what writes P and what reads it (R10, R13, R14, R16, R79).
-/
open Sys2Proof Sys2Proof.Machine

namespace Sys2Proof.Claims

/-- An address of the stack page as a number (R8): the byte fills the low half below 0x0100. -/
theorem stackPage_toNat (b : Byte) : (0x0100#16 ||| zext16 b).toNat = 0x100 + b.toNat := by
  have hword : 0x0100#16 ||| zext16 b = wordOfBytes b 1 := BitVec.or_comm _ _
  rw [hword, wordOfBytes_toNat]
  exact Nat.add_comm _ _

theorem stackAddr_toNat (s : State) : (stackAddr s).toNat = 0x100 + s.sp.toNat := stackPage_toNat s.sp

/-- The byte a pull answers, at its address as a number (R75). -/
theorem pull_fst_eq_byteAt (s : State) : (pull s).1 = byteAt s (0x100 + (s.sp.toNat + 1) % 256) := by
  have haddr : 0x100 + (s.sp.toNat + 1) % 256 = (0x0100#16 ||| zext16 (add8 s.sp 1)).toNat := by
    rw [stackPage_toNat, add8, BitVec.toNat_add]
    rfl
  rw [haddr, byteAt_toNat]
  rfl

/-- Settles O27: the handlers that end in SetZN, PLP, and those that leave P alone. -/
theorem eachInstructionHasTheStatusEffectOfR16 : Obligations.EachInstructionHasTheStatusEffectOfR16 := by
  refine fun i s => ⟨afterExec i s, exec_eq i s, ?_⟩
  cases i with
  | plp => exact pull_fst_eq_byteAt s
  | staZp | staZpX | staAbs | staAbsX | staAbsY | staIzX | staIzY | stxZp | stxZpY | stxAbs | styZp | styZpX | styAbs
  | txs | pha | php => rfl
  | _ => exact flagsFrom_statusZN _ _ _

/-- Every instruction but PLP leaves P as it was or as SetZN of some value. -/
theorem afterExec_p_of_ne_plp {i : Instr} (h : i ≠ .plp) (s : State) :
    (afterExec i s).p = s.p ∨ ∃ v, (afterExec i s).p = statusZN s.params v s.p := by
  cases i with
  | plp => exact absurd rfl h
  | staZp | staZpX | staAbs | staAbsX | staAbsY | staIzX | staIzY | stxZp | stxZpY | stxAbs | styZp | styZpX | styAbs
  | txs | pha | php => exact .inl rfl
  | _ => exact .inr ⟨_, rfl⟩

/-- The same of a step, by the opcode at PC; a halt leaves P alone. -/
theorem step_p_of_opAt_ne_plp {s t : State} (h : step s = .next t) (hop : opAt s ≠ 0x28) :
    t.p = s.p ∨ ∃ v, t.p = statusZN s.params v s.p := by
  obtain ⟨-, ⟨i, hf, rfl⟩ | ⟨-, rfl⟩⟩ := step_next_cases h
  · have hi : i ≠ .plp := by
      rintro rfl
      exact hop (opAt_of_fetchInstr hf)
    exact afterExec_p_of_ne_plp hi s
  · exact .inl rfl

/-- Settles O26: in sticky mode SetZN keeps a set bit. -/
theorem onlyPlpClearsAFlagInStickyMode : Obligations.OnlyPlpClearsAFlagInStickyMode := by
  intro s t k hmode hstep hset hclear
  by_contra hop
  obtain hp | ⟨v, hp⟩ := step_p_of_opAt_ne_plp hstep hop
  · rw [hp, hset] at hclear
    cases hclear
  · have hkept : zn s.params v s.p k = true := (zn_sticky hmode v s.p k).mpr (.inl hset)
    rw [hp, getLsbD_statusZN, hkept] at hclear
    cases hclear

/-- Settles O28: SetZN keeps the bits other than Z and N. -/
theorem otherStatusBitsChangeOnlyByPlp : Obligations.OtherStatusBitsChangeOnlyByPlp := by
  intro s t k hstep hz hn hchanged
  by_contra hop
  obtain hp | ⟨v, hp⟩ := step_p_of_opAt_ne_plp hstep hop
  · exact hchanged (by rw [hp])
  · exact hchanged (by rw [hp, getLsbD_statusZN, zn_other hz hn])

/-- No register depends on P. -/
theorem reg_afterExec_setP (i : Instr) (s : State) (q : Byte) (r : Reg) :
    (afterExec i (s.setP q)).reg r = (afterExec i s).reg r := by cases i <;> rfl

/-- PHP apart, what is stored and where does not depend on P. -/
theorem storeOf_setP {i : Instr} (h : i ≠ .php) (s : State) (q : Byte) : storeOf i (s.setP q) = storeOf i s := by
  cases i with
  | php => exact absurd rfl h
  | _ => rfl

theorem mem_afterExec_setP {i : Instr} (h : i ≠ .php) (s : State) (q : Byte) :
    (afterExec i (s.setP q)).mem = (afterExec i s).mem := by
  simp only [afterExec_mem, storeOf_setP h, State.setP_mem]

/-- Outside the byte PHP pushes, memory does not depend on P. -/
theorem read_afterExec_setP (i : Instr) (s : State) (q : Byte) {b : Word} (hb : b ≠ stackAddr s) :
    Memory.read (afterExec i (s.setP q)).mem b = Memory.read (afterExec i s).mem b := by
  by_cases hi : i = .php
  · subst hi
    calc Memory.read (Memory.write s.mem (stackAddr s) q) b
        = Memory.read s.mem b := Memory.read_write_other _ _ _ _ hb
      _ = Memory.read (Memory.write s.mem (stackAddr s) s.p) b := (Memory.read_write_other _ _ _ _ hb).symm
  · rw [mem_afterExec_setP hi]

/-- Settles O29: the fetch does not read P, and neither does an instruction but for the byte PHP pushes. -/
theorem noInstructionReadsAFlagButPhp : Obligations.NoInstructionReadsAFlagButPhp := by
  intro s t q hstep
  obtain ⟨hrun, ⟨i, hf, rfl⟩ | ⟨hf, rfl⟩⟩ := step_next_cases hstep
  · have hstep' : step (s.setP q) = .next (afterExec i (s.setP q)) :=
      (step_of_fetch (s := s.setP q) hrun hf).trans (exec_eq i _)
    refine ⟨_, hstep', reg_afterExec_setP i s q, by simp, by simp, by simp, fun hop => ?_, fun b hb => ?_⟩
    · refine mem_afterExec_setP ?_ s q
      rintro rfl
      exact hop (opAt_of_fetchInstr hf)
    · refine read_afterExec_setP i s q ?_
      rintro rfl
      exact hb (stackAddr_toNat s)
  · exact ⟨_, step_of_no_fetch hrun hf, fun r => by cases r <;> rfl, rfl, rfl, rfl, fun _ => rfl, fun _ _ => rfl⟩

end Sys2Proof.Claims
end

section
/-!
PROOF of O30 and O31: which opcodes write which register (R7, R8, R74, R75).
-/
open Sys2Proof Sys2Proof.Machine

namespace Sys2Proof.Claims

theorem afterExec_a_of_notMem {i : Instr} (h : (opcode i).toNat ∉ opsWritingA) (s : State) :
    (afterExec i s).a = s.a := by
  cases i with
  | ldaImm | ldaZp | ldaZpX | ldaAbs | ldaAbsX | ldaAbsY | ldaIzX | ldaIzY | txa | tya | pla =>
    exact absurd (of_decide_eq_true rfl) h
  | _ => rfl

theorem afterExec_x_of_notMem {i : Instr} (h : (opcode i).toNat ∉ opsWritingX) (s : State) :
    (afterExec i s).x = s.x := by
  cases i with
  | ldxImm | ldxZp | ldxZpY | ldxAbs | ldxAbsY | tax | tsx => exact absurd (of_decide_eq_true rfl) h
  | _ => rfl

theorem afterExec_y_of_notMem {i : Instr} (h : (opcode i).toNat ∉ opsWritingY) (s : State) :
    (afterExec i s).y = s.y := by
  cases i with
  | ldyImm | ldyZp | ldyZpX | ldyAbs | ldyAbsX | tay => exact absurd (of_decide_eq_true rfl) h
  | _ => rfl

/-- Settles O30: an instruction whose opcode is not listed leaves the register, and so does a halt. -/
theorem generalRegistersAreWrittenOnlyByTheirInstructions :
    Obligations.GeneralRegistersAreWrittenOnlyByTheirInstructions := by
  intro s t hstep
  obtain ⟨-, ⟨i, hf, rfl⟩ | ⟨-, rfl⟩⟩ := step_next_cases hstep
  · rw [opAt_of_fetchInstr hf]
    exact ⟨fun hne => by_contra fun hop => hne (afterExec_a_of_notMem hop s),
      fun hne => by_contra fun hop => hne (afterExec_x_of_notMem hop s),
      fun hne => by_contra fun hop => hne (afterExec_y_of_notMem hop s)⟩
  · exact ⟨absurd rfl, absurd rfl, absurd rfl⟩

theorem add8_one_toNat (b : Byte) : (add8 b 1).toNat = (b.toNat + 1) % 256 := BitVec.toNat_add b 1

theorem sub8_one_toNat (b : Byte) : (sub8 b 1).toNat = (b.toNat + 255) % 256 := by
  rw [Nat.add_comm]
  exact BitVec.toNat_sub b 1

/-- An instruction that changes SP is TXS, a push or a pull, and the last two change it by 1 (R8, R74, R75). -/
theorem afterExec_sp_of_ne {i : Instr} {s : State} (h : (afterExec i s).sp ≠ s.sp) :
    i = .txs ∨ ((i = .pha ∨ i = .php) ∧ (afterExec i s).sp = sub8 s.sp 1) ∨
      ((i = .pla ∨ i = .plp) ∧ (afterExec i s).sp = add8 s.sp 1) := by
  cases i with
  | txs => exact .inl rfl
  | pha => exact .inr (.inl ⟨.inl rfl, rfl⟩)
  | php => exact .inr (.inl ⟨.inr rfl, rfl⟩)
  | pla => exact .inr (.inr ⟨.inl rfl, rfl⟩)
  | plp => exact .inr (.inr ⟨.inr rfl, rfl⟩)
  | _ => exact absurd rfl h

/-- Settles O31, by the kind of instruction that changes SP; a halt does not. -/
theorem stackPointerIsWrittenOnlyByItsInstructions : Obligations.StackPointerIsWrittenOnlyByItsInstructions := by
  intro s t hstep hne
  obtain ⟨-, ⟨i, hf, rfl⟩ | ⟨-, rfl⟩⟩ := step_next_cases hstep
  · rw [opAt_of_fetchInstr hf]
    obtain rfl | ⟨hpush, hsp⟩ | ⟨hpull, hsp⟩ := afterExec_sp_of_ne hne
    case inl.inl => simp [opcode, opsWritingSp]
    case inl.inr.inl =>
      rw [hsp, sub8_one_toNat]
      obtain rfl | rfl := hpush <;> simp [opcode, opsWritingSp]
    case inl.inr.inr =>
      rw [hsp, add8_one_toNat]
      obtain rfl | rfl := hpull <;> simp [opcode, opsWritingSp]
  · exact absurd rfl hne

end Sys2Proof.Claims
end

section
/-!
SUPPORT for the proofs: the decoder on each format and on an encoding (R36 to R39), a fetch from the bytes memory holds at
PC (R38, R45), what a store and a push leave in memory (R23, R27, R28, R74), and the first step of a run (R30).
-/
namespace Sys2Proof

theorem decode_f1 {set : List Byte} {op : Byte} {i : Instr} (hset : set.contains op = true)
    (hd : dispatch op = some (.f1 i)) (rest : List Byte) : decode set (op :: rest) = .ok i rest := by
  rw [decode, if_pos hset, hd]

theorem decode_f2 {set : List Byte} {op : Byte} {mk : Byte → Instr} (hset : set.contains op = true)
    (hd : dispatch op = some (.f2 mk)) (op8 : Byte) (rest : List Byte) :
    decode set (op :: op8 :: rest) = .ok (mk op8) rest := by
  rw [decode, if_pos hset, hd]

theorem decode_f3 {set : List Byte} {op : Byte} {mk : Word → Instr} (hset : set.contains op = true)
    (hd : dispatch op = some (.f3 mk)) (lo hi : Byte) (rest : List Byte) :
    decode set (op :: lo :: hi :: rest) = .ok (mk (wordOfBytes lo hi)) rest := by
  rw [decode, if_pos hset, hd]

/-- The other direction of `decode_inv`: an encoding decodes to its instruction, whatever follows it. -/
theorem decode_encode {set : List Byte} {i : Instr} (h : i.wellFormed set = true) (rest : List Byte) :
    decode set (encode i ++ rest) = .ok i rest := by
  cases i with
  | tax | tay | txa | tya | tsx | txs | pha | php | pla | plp => exact decode_f1 h rfl rest
  | ldaAbs w | ldaAbsX w | ldaAbsY w | ldxAbs w | ldxAbsY w | ldyAbs w | ldyAbsX w | staAbs w | staAbsX w | staAbsY w
  | stxAbs w | styAbs w =>
    refine (decode_f3 h rfl (lowByte w) (highByte w) rest).trans ?_
    rw [wordOfBytes_low_high]
  | _ op8 => exact decode_f2 h rfl op8 rest

theorem length_encode_le (i : Instr) : (encode i).length ≤ 3 := by
  cases i <;> simp [encode, operandBytes]

end Sys2Proof

namespace Sys2Proof.Machine
open Sys2Proof.Claims

theorem fetchInstr_of_decode {s : State} {i : Instr} {rest : List Byte}
    (h : decode s.params.implementedSet (fetchBytes s) = .ok i rest) : fetchInstr s = some i := by
  unfold fetchInstr
  rw [h]

theorem fetchInstr_of_decode_error {s : State} {e : DecodeError}
    (h : decode s.params.implementedSet (fetchBytes s) = .error e) : fetchInstr s = none := by
  unfold fetchInstr
  rw [h]

/-- The three bytes of a fetch stand at PC and the two addresses after it, modulo 65536 (92 D8). -/
theorem getElem?_fetchBytes (s : State) {k : Nat} (hk : k < 3) :
    (fetchBytes s)[k]? = some (byteAt s ((s.pc.toNat + k) % 65536)) := by
  have haddr : (s.pc.toNat + k) % 65536 = (add16 s.pc (BitVec.ofNat 16 k)).toNat := by
    rw [add16_toNat, BitVec.toNat_ofNat, Nat.add_mod_mod]
  rw [haddr, byteAt_toNat]
  match k with
  | 0 => simp [fetchBytes, add16]
  | 1 | 2 => rfl

/-- A running step that fetches `i` answers `afterExec i`. -/
theorem step_eq_afterExec {s : State} {i : Instr} (hrun : s.halt = .running) (hf : fetchInstr s = some i) :
    step s = .next (afterExec i s) := (step_of_fetch hrun hf).trans (exec_eq i s)

/-- The byte a store leaves at each address. -/
theorem readMem_of_storedByte {ea : Word} {v : Byte} {s t : State} (h : StoredByte ea v s t) (b : Word) :
    readMem t b = byteAfterStore ea v s b := by
  obtain ⟨hsame, hother⟩ := h
  unfold byteAfterStore
  split
  case isTrue hb => exact hb ▸ hsame
  case isFalse hb => exact hother b hb

theorem fetchBytes_of_storedByte {ea : Word} {v : Byte} {s t : State} (h : StoredByte ea v s t) :
    fetchBytes t = bytesAfterStore ea v s t.pc := by
  simp only [fetchBytes, bytesAfterStore, readMem_of_storedByte h]

theorem storedByte_write {ea : Word} {v : Byte} {s t : State} (h : t.mem = Memory.write s.mem ea v) :
    StoredByte ea v s t := by
  unfold StoredByte
  rw [h]
  exact ⟨Memory.read_write_same s.mem ea v, fun b hb => Memory.read_write_other s.mem ea b v hb⟩

/-- What an instruction that stores leaves in memory (R27). -/
theorem storedByte_afterExec {i : Instr} {s : State} {ea : Word} {v : Byte} (h : storeOf i s = some (ea, v)) :
    StoredByte ea v s (afterExec i s) := by
  apply storedByte_write
  rw [afterExec_mem, h]
  rfl

/-- An instruction without a store leaves memory as it was (R27). -/
theorem afterExec_mem_of_storeOf_eq_none {i : Instr} {s : State} (h : storeOf i s = none) :
    (afterExec i s).mem = s.mem := by
  rw [afterExec_mem, h]
  rfl

/-- The instructions that store are STA, STX, STY, PHA and PHP (R27). -/
theorem opcode_mem_opsStoring {i : Instr} {s : State} {cell : Word × Byte} (h : storeOf i s = some cell) :
    (opcode i).toNat ∈ opsStoring := by
  cases i with
  | staZp | staZpX | staAbs | staAbsX | staAbsY | staIzX | staIzY | stxZp | stxZpY | stxAbs | styZp | styZpX | styAbs
  | pha | php => exact of_decide_eq_true rfl
  | _ => cases h

theorem storedByte_push (v : Byte) (s : State) : StoredByte (stackAddr s) v s (push v s) :=
  storedByte_write rfl

/-- What a stack operation addresses is in the stack page (R8, R28). -/
theorem regionOf_stackAddr (s : State) : regionOf (stackAddr s) = .stackPage := by
  have hsp := s.sp.isLt
  have hlow : ¬(stackAddr s).toNat < 0x100 := by rw [stackAddr_toNat]; omega
  have hhigh : (stackAddr s).toNat < 0x200 := by rw [stackAddr_toNat]; omega
  unfold regionOf
  rw [if_neg hlow, if_pos hhigh]

/-- A run of `k + 1` steps is a step and a run of `k`. -/
theorem run_succ_next {k : Nat} {s t : State} (h : run (k + 1) s = .next t) :
    ∃ u, step s = .next u ∧ run k u = .next t := by
  unfold run at h
  split at h
  case h_1 u hstep => exact ⟨u, hstep, h⟩
  case h_2 => cases h
  case h_3 => cases h

end Sys2Proof.Machine
end

section
/-!
SUPPORT for the proofs: canonical memories are determined by what they read (R22, R23).
-/
namespace Sys2Proof.Machine

theorem Memory.wfFrom_cons_iff {lo a : Nat} {v : Byte} {rest : Memory} :
    Memory.wfFrom lo ((a, v) :: rest) = true ↔ lo ≤ a ∧ a < 65536 ∧ v ≠ 0 ∧ Memory.wfFrom (a + 1) rest = true := by
  simp [Memory.wfFrom, and_assoc]

@[simp] theorem Memory.readNat_cons_same (a : Nat) (v : Byte) (rest : Memory) :
    Memory.readNat ((a, v) :: rest) a = v := if_pos rfl

theorem Memory.readNat_cons_other {a k : Nat} (h : a ≠ k) (v : Byte) (rest : Memory) :
    Memory.readNat ((a, v) :: rest) k = Memory.readNat rest k := if_neg h

theorem Memory.readNat_eq_zero_of_lt {m : Memory} {lo k : Nat} (hw : Memory.wfFrom lo m = true) (hk : k < lo) :
    Memory.readNat m k = 0 := by
  induction m generalizing lo with
  | nil => rfl
  | cons cell rest ih =>
    obtain ⟨a, v⟩ := cell
    obtain ⟨hlo, -, -, hrest⟩ := Memory.wfFrom_cons_iff.mp hw
    have hne : a ≠ k := by omega
    exact (Memory.readNat_cons_other hne v rest).trans (ih hrest (by omega))

/-- No address below the first cell's reads other than 0x00. -/
theorem Memory.head_le_of_readNat_ne_zero {lo a k : Nat} {v : Byte} {rest : Memory}
    (hw : Memory.wfFrom lo ((a, v) :: rest) = true) (hread : Memory.readNat ((a, v) :: rest) k ≠ 0) : a ≤ k := by
  obtain ⟨-, hcell⟩ := Memory.wfFrom_cons_iff.mp hw
  by_contra hlt
  exact hread (Memory.readNat_eq_zero_of_lt (Memory.wfFrom_cons_iff.mpr ⟨le_rfl, hcell⟩) (by omega))

theorem Memory.readNat_head_ne_zero {lo a : Nat} {v : Byte} {rest : Memory}
    (hw : Memory.wfFrom lo ((a, v) :: rest) = true) : Memory.readNat ((a, v) :: rest) a ≠ 0 := by
  obtain ⟨-, -, hv, -⟩ := Memory.wfFrom_cons_iff.mp hw
  rwa [Memory.readNat_cons_same]

/-- Without an equal first cell, at whose address both rests read 0x00, canonical memories still read equal. -/
theorem Memory.readNat_rest_eq {a : Nat} {v : Byte} {rest rest' : Memory} (hw : Memory.wfFrom (a + 1) rest = true)
    (hw' : Memory.wfFrom (a + 1) rest' = true) {k : Nat}
    (hread : Memory.readNat ((a, v) :: rest) k = Memory.readNat ((a, v) :: rest') k) :
    Memory.readNat rest k = Memory.readNat rest' k := by
  by_cases hak : a = k
  · have hlt : k < a + 1 := by omega
    rw [Memory.readNat_eq_zero_of_lt hw hlt, Memory.readNat_eq_zero_of_lt hw' hlt]
  · rwa [Memory.readNat_cons_other hak, Memory.readNat_cons_other hak] at hread

/-- The first cells agree, since each is the lowest address that does not read 0x00, and then the rests read equal. -/
theorem Memory.eq_of_readNat_eq {m m' : Memory} {lo : Nat} (hw : Memory.wfFrom lo m = true)
    (hw' : Memory.wfFrom lo m' = true) (hread : ∀ k < 65536, Memory.readNat m k = Memory.readNat m' k) : m = m' := by
  induction m generalizing m' lo with
  | nil =>
    cases m' with
    | nil => rfl
    | cons cell' rest' =>
      obtain ⟨-, ha', -⟩ := Memory.wfFrom_cons_iff.mp hw'
      exact absurd (hread _ ha').symm (Memory.readNat_head_ne_zero hw')
  | cons cell rest ih =>
    obtain ⟨a, v⟩ := cell
    obtain ⟨-, ha, -, hrest⟩ := Memory.wfFrom_cons_iff.mp hw
    cases m' with
    | nil => exact absurd (hread a ha) (Memory.readNat_head_ne_zero hw)
    | cons cell' rest' =>
      obtain ⟨a', v'⟩ := cell'
      obtain ⟨-, ha', -, hrest'⟩ := Memory.wfFrom_cons_iff.mp hw'
      have hle : a ≤ a' := Memory.head_le_of_readNat_ne_zero hw (hread a' ha' ▸ Memory.readNat_head_ne_zero hw')
      have hge : a' ≤ a := Memory.head_le_of_readNat_ne_zero hw' (hread a ha ▸ Memory.readNat_head_ne_zero hw)
      obtain rfl : a = a' := le_antisymm hle hge
      obtain rfl : v = v' := by simpa using hread a ha
      rw [ih hrest hrest' fun k hk => Memory.readNat_rest_eq hrest hrest' (hread k hk)]

end Sys2Proof.Machine
end

section
/-!
PROOF of O4 and O5: runs keep the invariant (R30, R99), and the canonical form of memory is unique (R22, R23).
-/
open Sys2Proof Sys2Proof.Machine

namespace Sys2Proof.Claims

/-- Settles O4, by induction on the number of steps. -/
theorem runKeepsTheInvariant : Obligations.RunKeepsTheInvariant := by
  intro k
  induction k with
  | zero =>
    intro s t hinv hrun
    cases hrun
    exact ⟨hinv, rfl⟩
  | succ k ih =>
    intro s t hinv hrun
    obtain ⟨u, hstep, hrest⟩ := run_succ_next hrun
    obtain ⟨hu, hpar⟩ := stepKeepsTheInvariant s u hinv hstep
    obtain ⟨ht, hpar'⟩ := ih u t hu hrest
    exact ⟨ht, hpar'.trans hpar⟩

/-- Settles O5: the 65536 words are the addresses a canonical list can hold. -/
theorem canonicalMemoriesAreEqualWhenTheyReadEqual : Obligations.CanonicalMemoriesAreEqualWhenTheyReadEqual := by
  intro m m' hw hw' hread
  refine Memory.eq_of_readNat_eq hw hw' fun k hk => ?_
  have hword : (BitVec.ofNat 16 k).toNat = k := Nat.mod_eq_of_lt hk
  simpa [Memory.read, hword] using hread (BitVec.ofNat 16 k)

end Sys2Proof.Claims
end

section
/-!
PROOF of O15, O22, O23 and O32: a step and the bytes of memory it reads and writes (R23, R27, R32, R33, R34, R45, R100).
-/
open Sys2Proof Sys2Proof.Machine

namespace Sys2Proof.Claims

/-- Settles O15: the bytes of the fetch begin with the encoding, which decodes to its instruction whatever follows it. -/
theorem stepRunsTheInstructionInMemory : Obligations.StepRunsTheInstructionInMemory := by
  intro s i hrun hset hmem
  have hbegin : encode i <+: fetchBytes s := by
    refine List.prefix_iff_getElem?.mpr fun k hk => ?_
    have hk3 : k < 3 := hk.trans_le (length_encode_le i)
    rw [getElem?_fetchBytes s hk3, hmem k _ (List.getElem?_eq_getElem hk)]
  obtain ⟨rest, hbytes⟩ := hbegin
  have hdecode : decode s.params.implementedSet (fetchBytes s) = .ok i rest := hbytes ▸ decode_encode hset rest
  exact step_of_fetch hrun (fetchInstr_of_decode hdecode)

/-- Settles O22: the state after the store reads the stored byte, so the next fetch decodes the bytes with it. -/
theorem storeIsSeenByTheNextFetch : Obligations.StoreIsSeenByTheNextFetch := by
  intro s i ea v hrun hf hstore
  have hstored := storedByte_afterExec hstore
  have hbytes := fetchBytes_of_storedByte hstored
  have hrun' : (afterExec i s).halt = .running := (afterExec_halt i s).trans hrun
  refine ⟨afterExec i s, step_eq_afterExec hrun hf, afterExec_pc i s, hbytes, ?_⟩
  rw [← hbytes, ← afterExec_params i s, ← readMem_of_storedByte hstored]
  split
  case h_1 j rest hd => exact step_of_fetch hrun' (fetchInstr_of_decode hd)
  case h_2 e hd => exact step_of_no_fetch hrun' (fetchInstr_of_decode_error hd)

/-- The operand of STA absolute is the word after its opcode (R38, R54). -/
theorem fetchInstr_staAbs {s : State} (hset : s.params.implementedSet.contains 0x8D = true) (hop : opAt s = 0x8D) :
    fetchInstr s = some (.staAbs (read16 s (add16 s.pc 1))) := by
  have hpc : readMem s s.pc = 0x8D := BitVec.eq_of_toNat_eq hop
  apply fetchInstr_of_decode
  rw [fetchBytes, hpc, read16, add16_add16_one_one]
  exact decode_f3 hset rfl _ _ []

/-- Settles O23: the operand is fetched before the store, so where the store goes does not matter to the step. -/
theorem storeIntoItsOwnBytesDoesNotChangeTheStep : Obligations.StoreIntoItsOwnBytesDoesNotChangeTheStep := by
  intro s k _ hrun hset hop haddr
  have hf := fetchInstr_staAbs hset hop
  rw [haddr] at hf
  exact ⟨_, step_eq_afterExec hrun hf, storedByte_afterExec rfl, afterExec_pc _ s, (afterExec_halt _ s).trans hrun⟩

/-- Settles O32: a changed byte is the one stored, and a step that stores nothing changes none. -/
theorem stepChangesAtMostOneByteOfMemory : Obligations.StepChangesAtMostOneByteOfMemory := by
  intro s t b hstep hchanged
  obtain ⟨-, ⟨i, hf, rfl⟩ | ⟨-, rfl⟩⟩ := step_next_cases hstep
  · cases hstore : storeOf i s with
    | none => exact absurd (by rw [afterExec_mem_of_storeOf_eq_none hstore]) hchanged
    | some cell =>
      obtain ⟨-, hother⟩ := storedByte_afterExec hstore
      obtain rfl : b = cell.1 := by_contra fun hb => hchanged (hother b hb)
      exact ⟨opAt_of_fetchInstr hf ▸ opcode_mem_opsStoring hstore, hother⟩
  · exact absurd rfl hchanged

end Sys2Proof.Claims
end

section
/-!
PROOF of O60: any number of pushes stays in the stack page (R28, R74).
-/
open Sys2Proof Sys2Proof.Machine

namespace Sys2Proof.Claims

theorem read_push_of_regionOf_ne {b : Word} (hb : regionOf b ≠ .stackPage) (v : Byte) (s : State) :
    Memory.read (push v s).mem b = Memory.read s.mem b := by
  obtain ⟨-, hother⟩ := storedByte_push v s
  refine hother b ?_
  rintro rfl
  exact hb (regionOf_stackAddr s)

theorem reg_push_of_ne_sp {q : Reg} (hq : q ≠ .sp) (v : Byte) (s : State) : (push v s).reg q = s.reg q := by
  cases q with
  | sp => exact absurd rfl hq
  | _ => rfl

/-- Settles O60, by induction on the bytes pushed: each push writes in the stack page and moves SP down by 1. -/
theorem pushesStayInTheStackPage : Obligations.PushesStayInTheStackPage := by
  intro vs
  induction vs with
  | nil => exact fun s => ⟨fun _ _ => rfl, Nat.mod_eq_of_lt s.sp.isLt, fun _ _ => rfl, rfl, rfl⟩
  | cons v vs ih =>
    intro s
    obtain ⟨hread, hsp, hreg, hp, hpc⟩ := ih (push v s)
    refine ⟨fun b hb => (hread b hb).trans (read_push_of_regionOf_ne hb v s), ?_,
      fun q hq => (hreg q hq).trans (reg_push_of_ne_sp hq v s), hp, hpc⟩
    have hpush : (push v s).sp.toNat = (s.sp.toNat + 255) % 256 := sub8_one_toNat s.sp
    have hlt := s.sp.isLt
    rw [hpush] at hsp
    simp only [pushAll, List.length_cons]
    omega

end Sys2Proof.Claims
end

section
/-!
SUPPORT for the proofs: the opcode and the length of what is decoded (R36, R37), the rejection of an opcode (R41, R42), and
the table of R39 as the encoder has it.
-/
namespace Sys2Proof
open Sys2Proof.Machine Sys2Proof.Claims

/-- A core with all 41 opcodes has every instruction (R41). -/
theorem wellFormed_opcodes (i : Instr) : i.wellFormed opcodes = true := opcode_mem i

theorem length_encode (i : Instr) : (encode i).length = i.length := by
  simp [encode, length_operandBytes, Instr.length, Nat.add_comm]

/-- A decoded instruction has the first byte as its opcode, and the decoder consumes as many bytes as its length. -/
theorem opcode_and_length_of_decode {set tail rest : List Byte} {op : Byte} {i : Instr}
    (h : decode set (op :: tail) = .ok i rest) : op = opcode i ∧ (op :: tail).length = i.length + rest.length := by
  have hbytes : op :: tail = encode i ++ rest := (decode_inv h).2
  refine ⟨(List.cons.inj hbytes).1, ?_⟩
  rw [hbytes, List.length_append, length_encode]

/-- An opcode that is not of R39, or not in the set, is rejected by name, whatever follows it. -/
theorem decode_of_not_recognised {set : List Byte} {op : Byte}
    (h : ¬(set.contains op = true ∧ op.toNat ∈ opsRecognised)) (rest : List Byte) :
    decode set (op :: rest) = .error (.unrecognizedOpcode op) := by
  by_cases hset : set.contains op = true
  · have hd : dispatch op = none :=
      Option.not_isSome_iff_eq_none.mp fun hsome => h ⟨hset, (dispatch_isSome_iff op).mp hsome⟩
    rw [decode, if_pos hset, hd]
  · rw [decode, if_neg hset]

/-- The row of R39 that describes an instruction. -/
def rowOf (i : Instr) : Nat × Mnemonic × Mode × Nat := row (opcode i).toNat i.mnemonic i.mode i.length

theorem rowOf_mem_tableR39 (i : Instr) : rowOf i ∈ tableR39 := by cases i <;> exact of_decide_eq_true rfl

/-- Each opcode has one row in R39. -/
theorem tableR39_opcodes_nodup : (tableR39.map Prod.fst).Nodup := by decide

theorem rowOf_eq_of_opcode_eq {i j : Instr} (h : opcode i = opcode j) : rowOf i = rowOf j :=
  List.inj_on_of_nodup_map tableR39_opcodes_nodup (rowOf_mem_tableR39 i) (rowOf_mem_tableR39 j)
    (congrArg BitVec.toNat h)

end Sys2Proof

namespace Sys2Proof.Machine
open Sys2Proof.Claims

/-- The bytes of a fetch, their addresses as numbers modulo 65536 (92 D8). -/
theorem fetchBytes_eq_byteAt (s : State) :
    fetchBytes s =
      [byteAt s s.pc.toNat, byteAt s ((s.pc.toNat + 1) % 65536), byteAt s ((s.pc.toNat + 2) % 65536)] := by
  have hnext : (s.pc.toNat + 1) % 65536 = (add16 s.pc 1).toNat := (add16_toNat s.pc 1).symm
  have hafter : (s.pc.toNat + 2) % 65536 = (add16 s.pc 2).toNat := (add16_toNat s.pc 2).symm
  rw [hnext, hafter, byteAt_toNat, byteAt_toNat, byteAt_toNat, fetchBytes]

end Sys2Proof.Machine
end

section
/-!
PROOF of O6 to O12: the decoder, the encoder and the table of R39 agree (R36 to R44).
-/
open Sys2Proof Sys2Proof.Machine

namespace Sys2Proof.Claims

/-- Settles O6, by the format of the instruction (`decode_encode`). -/
theorem decodeOfEncodeIsTheInstruction : Obligations.DecodeOfEncodeIsTheInstruction :=
  fun _ _ rest hset => decode_encode hset rest

/-- Settles O7, by the inversion of the decoder. -/
theorem decodedBytesAreTheEncoding : Obligations.DecodedBytesAreTheEncoding :=
  fun _ _ _ _ hdecode => decode_inv hdecode

/-- Settles O8: the dispatch table has an entry for exactly the 41, and three bytes are enough for each of them. -/
theorem recognisedOpcodesAreTheFortyOne : Obligations.RecognisedOpcodesAreTheFortyOne :=
  fun set op lo hi => ⟨decode_three_ok_iff set op lo hi, fun hnot => decode_of_not_recognised hnot [lo, hi]⟩

/-- Settles O9: a decoded instruction has the opcode it was decoded from, and every instruction its row. -/
theorem opcodeTableIsThatOfR39 : Obligations.OpcodeTableIsThatOfR39 := by
  refine ⟨fun op lo hi i rest hdecode => ?decoded, fun i => ?encoded⟩
  case decoded =>
    obtain ⟨rfl, -⟩ := opcode_and_length_of_decode hdecode
    exact rowOf_mem_tableR39 i
  case encoded =>
    rw [length_encode]
    exact rowOf_mem_tableR39 i

/-- Settles O12: both instructions have the opcode, which has one row in R39. -/
theorem opcodeByteAloneFixesTheLength : Obligations.OpcodeByteAloneFixesTheLength := by
  intro set set' op tail tail' rest rest' i j hi hj
  obtain ⟨hopi, hconsumed⟩ := opcode_and_length_of_decode hi
  obtain ⟨hopj, hconsumed'⟩ := opcode_and_length_of_decode hj
  have hrow : rowOf i = rowOf j := rowOf_eq_of_opcode_eq (hopi.symm.trans hopj)
  simp only [rowOf, row, Prod.mk.injEq] at hrow
  obtain ⟨-, hmnemonic, hmode, hlength⟩ := hrow
  exact ⟨hmnemonic, hmode, hlength, Nat.le_add_right 1 _, length_encode i ▸ length_encode_le i, hconsumed,
    hlength ▸ hconsumed'⟩

/-- Settles O10: eight of the words are encodings, and the opcodes of the other three are not of R39. -/
theorem wordsWrittenOutDecode : Obligations.WordsWrittenOutDecode := by
  have hencoding (i : Instr) : decode opcodes (encode i) = .ok i [] := by
    simpa using decode_encode (wellFormed_opcodes i) []
  have hrejected {op : Byte} (hop : op.toNat ∉ opsRecognised) (rest : List Byte) :
      decode opcodes (op :: rest) = .error (.unrecognizedOpcode op) :=
    decode_of_not_recognised (fun hrec => hop hrec.2) rest
  exact ⟨hencoding (.ldaImm 0x42), hencoding (.ldaIzX 0x42), hencoding (.staAbsX 0x3569), hencoding (.ldxZpY 0x42),
    hencoding (.styZp 0x42), hencoding .tsx, hencoding .pha, hencoding .plp,
    hrejected (by decide) [], hrejected (by decide) [], hrejected (by decide) [0x42]⟩

/-- The rows of R39 have the fields of R40. -/
theorem opcode_fields_of_mem_tableR39 :
    ∀ r ∈ tableR39, r.1 = 32 * fieldA r.2.1 + 4 * fieldB r.2.1 r.2.2.1 + fieldC r.2.1 := by decide

/-- Settles O11: every instruction has a row of R39, and the rows have the fields of R40. -/
theorem opcodeByteHasTheFieldsOfR40 : Obligations.OpcodeByteHasTheFieldsOfR40 :=
  fun i => opcode_fields_of_mem_tableR39 (rowOf i) (rowOf_mem_tableR39 i)

end Sys2Proof.Claims
end

section
/-!
PROOF of O14: a running step runs the instruction the bytes at PC decode to (R33, R45).
-/
open Sys2Proof Sys2Proof.Machine

namespace Sys2Proof.Claims

/-- Settles O14: the bytes decoded are those of the fetch. -/
theorem stepRunsTheDecodedInstruction : Obligations.StepRunsTheDecodedInstruction := by
  intro s i rest hrun hdecode
  rw [← fetchBytes_eq_byteAt] at hdecode
  exact step_of_fetch hrun (fetchInstr_of_decode hdecode)

end Sys2Proof.Claims
end

section
/-!
SUPPORT for the proofs: effective addresses and the zero-page pointer as numbers (R51 to R59), the length of an instruction
by its opcode (R36), and the fetch of a two-byte instruction (R38, R50).
-/
namespace Sys2Proof.Machine
open Sys2Proof.Claims

theorem add8_toNat (a b : Byte) : (add8 a b).toNat = (a.toNat + b.toNat) % 256 := BitVec.toNat_add a b

theorem regionOf_zext16 (b : Byte) : regionOf (zext16 b) = .zeroPage :=
  if_pos (by rw [zext16_toNat]; exact b.isLt)

theorem zext16_add8_toNat (a b : Byte) : (zext16 (add8 a b)).toNat = (a.toNat + b.toNat) % 256 := by
  rw [zext16_toNat, add8_toNat]

theorem add16_zext16_toNat (w : Word) (b : Byte) : (add16 w (zext16 b)).toNat = (w.toNat + b.toNat) % 65536 := by
  rw [add16_toNat, zext16_toNat]

/-- The high byte of a pointer stands where R57 says, in either setting of ZP_PTR_WRAP. -/
theorem zpPtrHighAddr_toNat (w : ZpPtrWrap) (ptr : Byte) : (zpPtrHighAddr w ptr).toNat = pointerHighAt w ptr.toNat := by
  cases w with
  | zpWrap =>
    rw [zpPtrHighAddr_zpWrap]
    exact zext16_add8_toNat ptr 1
  | linear =>
    have hptr := ptr.isLt
    have hfit : ptr.toNat + 1 < 65536 := by omega
    rw [zpPtrHighAddr_linear, add16_toNat, zext16_toNat]
    exact Nat.mod_eq_of_lt hfit

/-- Below 0xFF the setting of ZP_PTR_WRAP is not consulted. -/
theorem zpPtrHighAddr_of_ne {ptr : Byte} (h : ptr ≠ 0xFF) (w : ZpPtrWrap) :
    zpPtrHighAddr w ptr = add16 (zext16 ptr) 1 := if_neg h

/-- `ZPRead16` is the pointer of R57. -/
theorem zpRead16_toNat (ptr : Byte) (s : State) : (zpRead16 ptr s).toNat = pointerAt s ptr.toNat := by
  rw [zpRead16, wordOfBytes_toNat, pointerAt, ← zpPtrHighAddr_toNat, ← zext16_toNat ptr, byteAt_toNat, byteAt_toNat]

/-- The opcodes of H7, by length, are those of the instructions. -/
theorem lengthOfOpcode_opcode (i : Instr) : lengthOfOpcode (opcode i).toNat = i.length := by cases i <;> rfl

/-- A two-byte instruction is fetched with the byte at PC + 1 as its operand, the one R50 addresses. -/
theorem fetchInstr_f2 {s : State} {op : Byte} {mk : Byte → Instr} (hset : s.params.implementedSet.contains op = true)
    (hd : dispatch op = some (.f2 mk)) (hop : readMem s s.pc = op) :
    fetchInstr s = some (mk (readMem s (eaImm s))) := by
  apply fetchInstr_of_decode
  rw [fetchBytes, hop]
  exact decode_f2 hset hd _ _

/-- A running step on a two-byte opcode whose instruction loads its operand byte. -/
theorem step_loadValue_f2 {s : State} {op : Byte} {mk : Byte → Instr} {r : Reg} (hrun : s.halt = .running)
    (hset : s.params.implementedSet.contains op = true) (hop : readMem s s.pc = op)
    (hd : dispatch op = some (.f2 mk)) (hexec : ∀ v, exec (mk v) s = loadValue r v 2 s) :
    ∃ t, step s = .next t ∧ t.reg r = readMem s (eaImm s) ∧ t.pc = add16 s.pc 2 := by
  obtain ⟨t, hload, hreg, -, -, hpc, -⟩ := loadValue_spec r (readMem s (eaImm s)) 2 s
  have hstep : step s = .next t := by
    rw [step_of_fetch hrun (fetchInstr_f2 hset hd hop), hexec, hload]
  exact ⟨t, hstep, hreg, hpc⟩

end Sys2Proof.Machine
end

section
/-!
PROOF of O20: PC advances by the length of the opcode on a completed step and stays on a halt (R9, R60, R81).
-/
open Sys2Proof Sys2Proof.Machine

namespace Sys2Proof.Claims

/-- Settles O20, by whether the step ran an instruction or halted the core. -/
theorem completedStepAdvancesPcByTheLength : Obligations.CompletedStepAdvancesPcByTheLength := by
  intro s t hstep
  obtain ⟨hrun, ⟨i, hf, rfl⟩ | ⟨-, rfl⟩⟩ := step_next_cases hstep
  case inl =>
    have hrunning : (afterExec i s).halt = .running := (afterExec_halt i s).trans hrun
    refine ⟨fun _ => ?_, fun hhalted => absurd hrunning hhalted⟩
    rw [afterExec_pc, opAt_of_fetchInstr hf, lengthOfOpcode_opcode, add16_toNat, BitVec.toNat_ofNat, Nat.add_mod_mod]
  case inr => exact ⟨nofun, fun _ => rfl⟩

end Sys2Proof.Claims
end

section
/-!
PROOF of O33 to O37: the addressing modes (R50 to R59).
-/
open Sys2Proof Sys2Proof.Machine

namespace Sys2Proof.Claims

/-- Settles O33: each of the three is a byte, extended with zeros. -/
theorem zeroPageModesStayInTheZeroPage : Obligations.ZeroPageModesStayInTheZeroPage :=
  fun n s => ⟨zext16_toNat n, zext16_add8_toNat n s.x, zext16_add8_toNat n s.y, regionOf_zext16 _, regionOf_zext16 _,
    regionOf_zext16 _⟩

/-- Settles O34: the index byte is extended with zeros before the sum. -/
theorem absoluteModesAreFullSums : Obligations.AbsoluteModesAreFullSums :=
  fun w s => ⟨rfl, add16_zext16_toNat w s.x, add16_zext16_toNat w s.y⟩

/-- Settles O35: both bytes of the pointer stand where R57 says. -/
theorem zeroPagePointerIsReadPerZpPtrWrap : Obligations.ZeroPagePointerIsReadPerZpPtrWrap := by
  refine fun p s => ⟨zpRead16_toNat p s, fun hp => ?_⟩
  have hne : p ≠ 0xFF := by
    rintro rfl
    exact hp rfl
  rw [zpPtrHighAddr_of_ne hne, zpPtrHighAddr_of_ne hne]

/-- Settles O36: izx adds the index before the pointer is read, izy after. -/
theorem indirectModesGoThroughTheZeroPagePointer : Obligations.IndirectModesGoThroughTheZeroPagePointer := by
  refine fun n s => ⟨?izx, ?izy⟩
  case izx => rw [eaIzX, zpRead16_toNat, add8_toNat]
  case izy => rw [eaIzY, add16_zext16_toNat, zpRead16_toNat]

/-- Settles O37: the operand decoded for an immediate load is the byte R50 addresses. -/
theorem immediateOperandIsTheByteAfterTheOpcode : Obligations.ImmediateOperandIsTheByteAfterTheOpcode := by
  intro s op r hload hrun hset hop
  refine ⟨add16_toNat s.pc 1, ?_⟩
  simp only [List.mem_cons, Prod.mk.injEq, List.not_mem_nil, or_false] at hload
  obtain ⟨rfl, rfl⟩ | ⟨rfl, rfl⟩ | ⟨rfl, rfl⟩ := hload
  case inl => exact step_loadValue_f2 (mk := .ldaImm) hrun hset hop rfl fun _ => rfl
  case inr.inl => exact step_loadValue_f2 (mk := .ldxImm) hrun hset hop rfl fun _ => rfl
  case inr.inr => exact step_loadValue_f2 (mk := .ldyImm) hrun hset hop rfl fun _ => rfl

end Sys2Proof.Claims
end

section
/-!
SUPPORT for the proofs: an instruction whose meaning is one of the shared handlers of 41_load_store.md does what `Loads` or
`Stores` says, whatever its addressing mode (R61 to R66).
-/
namespace Sys2Proof.Machine
open Sys2Proof.Claims

theorem sameMemory_of_mem_eq {s t : State} (h : t.mem = s.mem) : SameMemory s t :=
  fun b => congrArg (Memory.read · b) h

/-- A load of the value `v` (R61 to R63). -/
theorem loads_of_loadValue {i : Instr} {r : Reg} {v : Byte} {len : Word} {s : State}
    (h : exec i s = loadValue r v len s) : Loads i r v len s := by
  obtain ⟨t, hload, hreg, hother, hp, hpc, hmem, hmachine⟩ := loadValue_spec r v len s
  have hflags : FlagsFrom s.params v s.p t.p := hp ▸ flagsFrom_statusZN s.params v s.p
  exact ⟨t, h.trans hload, hreg, hother, hflags, hpc, sameMemory_of_mem_eq hmem, hmachine⟩

/-- A load from memory takes the byte at its effective address (R61 to R63). -/
theorem loads_of_loadFrom {i : Instr} {r : Reg} {ea len : Word} {s : State} (h : exec i s = loadFrom r ea len s) :
    Loads i r (readMem s ea) len s := loads_of_loadValue h

/-- A store writes the byte of its register and no flag (R64 to R66). -/
theorem stores_of_storeTo {i : Instr} {r : Reg} {ea len : Word} {s : State} (h : exec i s = storeTo r ea len s) :
    Stores i ea (s.reg r) len s := by
  obtain ⟨t, hstore, hmem, hreg, hp, hpc, hmachine⟩ := storeTo_spec r ea len s
  exact ⟨t, h.trans hstore, storedByte_write hmem, hreg, hp, hpc, hmachine⟩

end Sys2Proof.Machine
end

section
/-!
PROOF of O38 to O43: every form of LDA, LDX, LDY, STA, STX and STY is the handler of its mnemonic at the effective address
of its mode, and its encoding is the row of R39 (R61 to R66).
-/
open Sys2Proof Sys2Proof.Machine

namespace Sys2Proof.Claims

/-- Settles O38, by the addressing mode: the immediate form loads its operand, the others read memory. -/
theorem ldaLoadsTheAccumulator : Obligations.LdaLoadsTheAccumulator := by
  refine fun n w s => ⟨?imm, ?zp, ?zpx, ?abs, ?abx, ?aby, ?izx, ?izy, ?encodings⟩
  case imm => exact loads_of_loadValue rfl
  case zp | zpx | abs | abx | aby | izx | izy => exact loads_of_loadFrom rfl
  case encodings => exact ⟨rfl, rfl, rfl, rfl, rfl, rfl, rfl, rfl⟩

/-- Settles O39, by the addressing mode: the immediate form loads its operand, the others read memory. -/
theorem ldxLoadsX : Obligations.LdxLoadsX := by
  refine fun n w s => ⟨?imm, ?zp, ?zpy, ?abs, ?aby, ?encodings⟩
  case imm => exact loads_of_loadValue rfl
  case zp | zpy | abs | aby => exact loads_of_loadFrom rfl
  case encodings => exact ⟨rfl, rfl, rfl, rfl, rfl⟩

/-- Settles O40, by the addressing mode: the immediate form loads its operand, the others read memory. -/
theorem ldyLoadsY : Obligations.LdyLoadsY := by
  refine fun n w s => ⟨?imm, ?zp, ?zpx, ?abs, ?abx, ?encodings⟩
  case imm => exact loads_of_loadValue rfl
  case zp | zpx | abs | abx => exact loads_of_loadFrom rfl
  case encodings => exact ⟨rfl, rfl, rfl, rfl, rfl⟩

/-- Settles O41, by the addressing mode: each form stores the accumulator at its effective address. -/
theorem staStoresTheAccumulator : Obligations.StaStoresTheAccumulator := by
  refine fun n w s => ⟨?zp, ?zpx, ?abs, ?abx, ?aby, ?izx, ?izy, ?encodings⟩
  case zp | zpx | abs | abx | aby | izx | izy => exact stores_of_storeTo (r := .a) rfl
  case encodings => exact ⟨rfl, rfl, rfl, rfl, rfl, rfl, rfl⟩

/-- Settles O42, by the addressing mode: each form stores X at its effective address. -/
theorem stxStoresX : Obligations.StxStoresX := by
  refine fun n w s => ⟨?zp, ?zpy, ?abs, ?encodings⟩
  case zp | zpy | abs => exact stores_of_storeTo (r := .x) rfl
  case encodings => exact ⟨rfl, rfl, rfl⟩

/-- Settles O43, by the addressing mode: each form stores Y at its effective address. -/
theorem styStoresY : Obligations.StyStoresY := by
  refine fun n w s => ⟨?zp, ?zpx, ?abs, ?encodings⟩
  case zp | zpx | abs => exact stores_of_storeTo (r := .y) rfl
  case encodings => exact ⟨rfl, rfl, rfl⟩

end Sys2Proof.Claims
end

section
/-!
SUPPORT for the proofs: a transfer with flags does what `Loads` says of the source register's byte (R68 to R72), and
`SameMemory` is transitive.
-/
namespace Sys2Proof.Machine
open Sys2Proof.Claims

/-- A transfer with flags is a load of the source register's byte (R68 to R72). -/
theorem loads_of_transfer {i : Instr} {src dst : Reg} {s : State} (h : exec i s = transfer src dst s) :
    Loads i dst (s.reg src) 1 s := loads_of_loadValue h

theorem sameMemory_trans {s t u : State} (hst : SameMemory s t) (htu : SameMemory t u) : SameMemory s u :=
  fun b => (htu b).trans (hst b)

end Sys2Proof.Machine
end

section
/-!
PROOF of O44 to O50: each transfer is the shared handler at its two registers, and its encoding is the row of R39
(R68 to R73).
-/
open Sys2Proof Sys2Proof.Machine

namespace Sys2Proof.Claims

/-- Settles O44: TAX is the transfer with flags from A to X. -/
theorem taxCopiesAToX : Obligations.TaxCopiesAToX := fun _ => ⟨loads_of_transfer (src := .a) rfl, rfl⟩

/-- Settles O45: TAY is the transfer with flags from A to Y. -/
theorem tayCopiesAToY : Obligations.TayCopiesAToY := fun _ => ⟨loads_of_transfer (src := .a) rfl, rfl⟩

/-- Settles O46: TXA is the transfer with flags from X to A. -/
theorem txaCopiesXToA : Obligations.TxaCopiesXToA := fun _ => ⟨loads_of_transfer (src := .x) rfl, rfl⟩

/-- Settles O47: TYA is the transfer with flags from Y to A. -/
theorem tyaCopiesYToA : Obligations.TyaCopiesYToA := fun _ => ⟨loads_of_transfer (src := .y) rfl, rfl⟩

/-- Settles O48: TSX is the transfer with flags from SP to X. -/
theorem tsxCopiesSpToX : Obligations.TsxCopiesSpToX := fun _ => ⟨loads_of_transfer (src := .sp) rfl, rfl⟩

/-- Settles O49: TXS is the transfer without flags from X to SP. -/
theorem txsCopiesXToSpWithoutFlags : Obligations.TxsCopiesXToSpWithoutFlags := by
  intro s
  obtain ⟨t, hexec, hsp, hother, hp, hpc, hmem, hmachine⟩ := transferQuiet_spec .x .sp s
  exact ⟨rfl, t, hexec, hsp, hother, hp, hpc, sameMemory_of_mem_eq hmem, hmachine⟩

/-- Settles O50, by O48 and O49 in either order: each transfer keeps every register but its destination. -/
theorem transfersBetweenXAndSpRoundTrip : Obligations.TransfersBetweenXAndSpRoundTrip := by
  refine fun s => ⟨?txsTsx, ?tsxTxs⟩
  case txsTsx =>
    obtain ⟨-, t, htxs, htsp, ht, -, -, htmem, -⟩ := txsCopiesXToSpWithoutFlags s
    obtain ⟨⟨u, htsx, hux, hu, -, -, humem, -⟩, -⟩ := tsxCopiesSpToX t
    have hsp : u.sp = s.x := (hu .sp (by decide)).trans htsp
    have ha : u.a = s.a := (hu .a (by decide)).trans (ht .a (by decide))
    have hy : u.y = s.y := (hu .y (by decide)).trans (ht .y (by decide))
    exact ⟨t, u, htxs, htsx, hux.trans htsp, hsp, ha, hy, sameMemory_trans htmem humem⟩
  case tsxTxs =>
    obtain ⟨⟨t, htsx, htx, ht, -, -, htmem, -⟩, -⟩ := tsxCopiesSpToX s
    obtain ⟨-, u, htxs, husp, hu, -, -, humem, -⟩ := txsCopiesXToSpWithoutFlags t
    have hx : u.x = s.sp := (hu .x (by decide)).trans htx
    have ha : u.a = s.a := (hu .a (by decide)).trans (ht .a (by decide))
    have hy : u.y = s.y := (hu .y (by decide)).trans (ht .y (by decide))
    exact ⟨t, u, htsx, htxs, husp.trans htx, hx, ha, hy, sameMemory_trans htmem humem⟩

end Sys2Proof.Claims
end

section
/-!
SUPPORT for the proofs: the bytes of the stack page by the SP that designates them, what one push, one pull and any number
of each do to them (R8, R74, R75), and the instructions of 43_stack.md as pushes and pulls (R76 to R79).
-/
namespace Sys2Proof.Machine
open Sys2Proof.Claims

/-- The byte of the stack page that SP designates when it is `b` (R8). -/
def stackByte (s : State) (b : Byte) : Byte := Memory.read s.mem (0x0100#16 ||| zext16 b)

theorem byteAt_stackPage (s : State) (b : Byte) : byteAt s (0x100 + b.toNat) = stackByte s b := by
  rw [← stackPage_toNat, byteAt_toNat]
  rfl

theorem pull_fst (s : State) : (pull s).1 = stackByte s (add8 s.sp 1) := rfl

theorem pull_snd_sp (s : State) : (pull s).2.sp = add8 s.sp 1 := rfl

theorem reg_pull_of_ne_sp {q : Reg} (hq : q ≠ .sp) (s : State) : (pull s).2.reg q = s.reg q := by
  cases q with
  | sp => exact absurd rfl hq
  | _ => rfl

theorem add8_sub8_one (b : Byte) : add8 (sub8 b 1) 1 = b := BitVec.sub_add_cancel b 1

theorem stackByte_push_same (v : Byte) (s : State) : stackByte (push v s) s.sp = v :=
  Memory.read_write_same _ _ _

/-- Two values of SP designate two addresses. -/
theorem stackByte_push_other {b : Byte} {s : State} (hb : b ≠ s.sp) (v : Byte) :
    stackByte (push v s) b = stackByte s b := by
  refine Memory.read_write_other _ _ _ _ fun haddr => hb (BitVec.eq_of_toNat_eq ?_)
  have hnat := congrArg BitVec.toNat haddr
  rwa [stackPage_toNat, stackAddr_toNat, Nat.add_left_cancel_iff] at hnat

/-- A pull after a push, whatever else changed but memory and SP (R74, R75). -/
theorem pull_of_pushed {v : Byte} {s t : State} (hstored : StoredByte (stackAddr s) v s t)
    (hsp : t.sp = sub8 s.sp 1) : (pull t).1 = v ∧ (pull t).2.sp = s.sp := by
  have hback : add8 t.sp 1 = s.sp := by rw [hsp, add8_sub8_one]
  refine ⟨?_, hback⟩
  rw [pull_fst, hback]
  exact hstored.1

/-- The first of `vs` goes to SP, the next one below it: `(s.sp - b).toNat` pushes do not reach `b`. -/
theorem stackByte_pushAll {vs : List Byte} {s : State} {b : Byte} (hlen : vs.length ≤ (s.sp - b).toNat) :
    stackByte (pushAll vs s) b = stackByte s b := by
  induction vs generalizing s with
  | nil => rfl
  | cons v vs ih =>
    have hb : b ≠ s.sp := by
      rintro rfl
      simp at hlen
    have hrest : vs.length ≤ ((push v s).sp - b).toNat := by
      have hsp : (push v s).sp = s.sp - 1 := rfl
      rw [List.length_cons] at hlen
      bv_omega
    exact (ih hrest).trans (stackByte_push_other hb v)

/-- 255 pushes more do not reach a pushed byte. -/
theorem stackByte_pushAll_push {vs : List Byte} (hlen : vs.length ≤ 255) (v : Byte) (s : State) :
    stackByte (pushAll vs (push v s)) s.sp = v := by
  have hdist : ((push v s).sp - s.sp).toNat = 255 := by
    have hsp : (push v s).sp = s.sp - 1 := rfl
    bv_omega
  exact (stackByte_pushAll (hdist ▸ hlen)).trans (stackByte_push_same v s)

theorem pushAll_append (vs ws : List Byte) (s : State) : pushAll (vs ++ ws) s = pushAll ws (pushAll vs s) := by
  induction vs generalizing s with
  | nil => rfl
  | cons v vs ih => exact ih (push v s)

theorem sameMachine_pushAll (vs : List Byte) (s : State) : SameMachine s (pushAll vs s) := by
  induction vs generalizing s with
  | nil => exact ⟨rfl, rfl⟩
  | cons v vs ih => exact ih (push v s)

/-- A pull does not erase the byte it reads (R75). -/
theorem stackByte_pullAll (n : Nat) (s : State) (b : Byte) : stackByte (pullAll n s).2 b = stackByte s b := by
  induction n generalizing s with
  | zero => rfl
  | succ n ih => exact ih (pull s).2

/-- The last of `n + 1` pulls, apart. -/
theorem pullAll_succ_last (n : Nat) (s : State) :
    pullAll (n + 1) s = ((pullAll n s).1 ++ [(pull (pullAll n s).2).1], (pull (pullAll n s).2).2) := by
  induction n generalizing s with
  | zero => rfl
  | succ n ih =>
    calc pullAll (n + 2) s
        = ((pull s).1 :: (pullAll (n + 1) (pull s).2).1, (pullAll (n + 1) (pull s).2).2) := rfl
      _ = _ := by rw [ih]; rfl

/-- PHA and PHP (R76, R77). -/
theorem pushes_of_push {i : Instr} {v : Byte} {s : State} (h : exec i s = complete 1 (push v s)) : Pushes i v s :=
  ⟨_, h, storedByte_push v s, rfl, fun _ hq => (State.reg_setPc _ _ _).trans (reg_push_of_ne_sp hq v s), rfl, rfl,
    rfl, rfl⟩

/-- PLA (R78). -/
theorem exec_pla (s : State) :
    exec .pla s = complete 1 (setZN (pull s).1 ((pull s).2.setA (pull s).1)) := rfl

/-- PLP (R79). -/
theorem exec_plp (s : State) : exec .plp s = complete 1 ((pull s).2.setP (pull s).1) := rfl

end Sys2Proof.Machine
end

section
/-!
PROOF of O51 to O59: the stack primitives, the instructions of 43_stack.md and its laws (R74 to R79).
-/
open Sys2Proof Sys2Proof.Machine

namespace Sys2Proof.Claims

/-- Settles O51, from what a push stores and the registers it keeps. -/
theorem pushWritesThenDecrements : Obligations.PushWritesThenDecrements :=
  fun v s => ⟨stackAddr_toNat s, storedByte_push v s, sub8_one_toNat s.sp, fun _ hq => reg_push_of_ne_sp hq v s, rfl,
    rfl, rfl, rfl⟩

/-- Settles O52, from the byte a pull answers and the registers it keeps. -/
theorem pullIncrementsThenReads : Obligations.PullIncrementsThenReads :=
  fun s => ⟨pull_fst_eq_byteAt s, add8_one_toNat s.sp, fun _ hq => reg_pull_of_ne_sp hq s, rfl, rfl, fun _ => rfl, rfl,
    rfl⟩

/-- Settles O53: PHA is the push of A. -/
theorem phaPushesTheAccumulator : Obligations.PhaPushesTheAccumulator := fun _ => ⟨pushes_of_push rfl, rfl⟩

/-- Settles O54: PHP is the push of P. -/
theorem phpPushesTheStatus : Obligations.PhpPushesTheStatus := fun _ => ⟨pushes_of_push rfl, rfl⟩

/-- Settles O55: PLA is a pull into A, with SetZN of the pulled byte. -/
theorem plaPullsTheAccumulator : Obligations.PlaPullsTheAccumulator :=
  fun s => ⟨rfl, _, exec_pla s, add8_one_toNat s.sp, pull_fst_eq_byteAt s, rfl, rfl, flagsFrom_statusZN _ _ _, rfl,
    fun _ => rfl, rfl, rfl⟩

/-- Settles O56: PLP is a pull into P. -/
theorem plpPullsTheStatus : Obligations.PlpPullsTheStatus :=
  fun s => ⟨rfl, _, exec_plp s, add8_one_toNat s.sp, pull_fst_eq_byteAt s, rfl, rfl, rfl, rfl, fun _ => rfl, rfl, rfl⟩

/-- Settles O57: each pull finds the byte of the push before it and brings SP back (`pull_of_pushed`). -/
theorem pushThenPullRestores : Obligations.PushThenPullRestores := by
  intro v s
  obtain ⟨hbyte, hsp⟩ := pull_of_pushed (storedByte_push v s) rfl
  refine ⟨hbyte, hsp, ?phpPlp, ?phaPla⟩
  case phpPlp =>
    obtain ⟨⟨t, hphp, hstored, htsp, ht, -⟩, -⟩ := phpPushesTheStatus s
    obtain ⟨hp, hback⟩ := pull_of_pushed hstored htsp
    refine ⟨t, _, hphp, exec_plp t, hp, fun q => ?_⟩
    by_cases hq : q = .sp
    · subst hq
      exact hback
    · rw [State.reg_setPc, State.reg_setP, reg_pull_of_ne_sp hq, ht q hq]
  case phaPla =>
    obtain ⟨⟨t, hpha, hstored, htsp, ht, htp, -, -, htpar⟩, -⟩ := phaPushesTheAccumulator s
    obtain ⟨ha, hback⟩ := pull_of_pushed hstored htsp
    refine ⟨t, _, hpha, exec_pla t, fun q => ?_, ?_⟩
    · cases q with
      | a => exact ha
      | x => exact ht .x (by decide)
      | y => exact ht .y (by decide)
      | sp => exact hback
    · rw [ha, ← htp, ← htpar]
      exact flagsFrom_statusZN t.params s.a t.p

/-- Settles O58, by induction on the bytes pushed: the first of them is the last pulled, and the others, at most 255, have
not reached it. -/
theorem stackIsLastInFirstOut : Obligations.StackIsLastInFirstOut := by
  intro vs
  induction vs with
  | nil => exact fun _ _ => ⟨rfl, rfl⟩
  | cons v vs ih =>
    intro s hlen
    have hvs : vs.length ≤ 255 := Nat.le_of_succ_le_succ hlen
    obtain ⟨hbytes, hsp⟩ := ih (push v s) (hvs.trans (by decide))
    have hback : add8 (pullAll vs.length (pushAll vs (push v s))).2.sp 1 = s.sp := hsp ▸ add8_sub8_one s.sp
    have hfirst : stackByte (pullAll vs.length (pushAll vs (push v s))).2 s.sp = v :=
      (stackByte_pullAll _ _ _).trans (stackByte_pushAll_push hvs v s)
    rw [pushAll, List.length_cons, pullAll_succ_last, pull_fst, pull_snd_sp, hback, hbytes, hfirst, List.reverse_cons]
    exact ⟨rfl, rfl⟩

/-- Settles O59: 255 pushes do not reach the first byte, and after 256 SP designates it again. -/
theorem the257thPushOverwritesTheOldestByte : Obligations.The257thPushOverwritesTheOldestByte := by
  intro v w vs s hlen
  have hwrap : (pushAll (v :: vs) s).sp = s.sp := by
    obtain ⟨-, hsp, -⟩ := pushesStayInTheStackPage (v :: vs) s
    rw [List.length_cons, hlen, Nat.add_mod_right, Nat.mod_eq_of_lt (pushAll (v :: vs) s).sp.isLt] at hsp
    exact BitVec.eq_of_toNat_eq hsp
  have hlast : pushAll (v :: vs ++ [w]) s = push w (pushAll (v :: vs) s) := pushAll_append (v :: vs) [w] s
  refine ⟨?first, ?last, ?sp, sameMachine_pushAll _ s⟩
  case first => rw [byteAt_stackPage, pushAll, stackByte_pushAll_push hlen.le]
  case last => rw [hlast, ← hwrap, byteAt_stackPage, stackByte_push_same]
  case sp =>
    rw [hlast, ← hwrap]
    exact sub8_one_toNat _

end Sys2Proof.Claims
end

section
/-!
SUPPORT for the proofs: a step and a run in each halt condition (R30, R82), and the bounds of an instruction's length (R36).
-/
namespace Sys2Proof.Machine
open Sys2Proof.Claims

theorem step_of_halted {s : State} {op : Byte} (h : s.halt = .halted op) : step s = .fault (.halted op) := by
  simp [step, stepHalted, h]

/-- A step that answers a fault ends the run. -/
theorem run_succ_of_fault {s : State} {r : Fault} (h : step s = .fault r) (k : Nat) : run (k + 1) s = .fault r := by
  simp [run, h]

/-- No step leaves the halted condition (R82), so a run that ends in a running state started in one. -/
theorem halt_running_of_run {k : Nat} {s t : State} (h : run k s = .next t) (hrun : t.halt = .running) :
    s.halt = .running := by
  cases k with
  | zero =>
    cases h
    exact hrun
  | succ k =>
    obtain ⟨u, hstep, -⟩ := run_succ_next h
    exact (step_cases hstep).1

theorem lengthOfOpcode_bounds (op : Nat) : 1 ≤ lengthOfOpcode op ∧ lengthOfOpcode op ≤ 3 := by
  unfold lengthOfOpcode
  split
  · decide
  · split <;> decide

end Sys2Proof.Machine
end

section
/-!
PROOF of O16, O17, O19 and O21: the halt on an unrecognised opcode, the halted state, and the completion and the sequential
flow of the instructions (R60, R80 to R83, R89).
-/
open Sys2Proof Sys2Proof.Machine

namespace Sys2Proof.Claims

/-- Settles O21, by induction on the number of steps: the run ends in a running state, so every step left one, which
means that it completed and advanced PC by a length of 1 to 3. -/
theorem runAdvancesPcSequentially : Obligations.RunAdvancesPcSequentially := by
  intro k
  induction k with
  | zero =>
    intro s t hrun _
    cases hrun
    exact ⟨0, le_rfl, le_rfl, (Nat.mod_eq_of_lt s.pc.isLt).symm⟩
  | succ k ih =>
    intro s t hrun ht
    obtain ⟨u, hstep, hrest⟩ := run_succ_next hrun
    obtain ⟨d, hlow, hhigh, hpc⟩ := ih u t hrest ht
    obtain ⟨hadvance, -⟩ := completedStepAdvancesPcByTheLength s u hstep
    obtain ⟨hpos, hle⟩ := lengthOfOpcode_bounds (opAt s)
    refine ⟨lengthOfOpcode (opAt s) + d, by omega, by omega, ?_⟩
    rw [hpc, hadvance (halt_running_of_run hrest ht), Nat.mod_add_mod, Nat.add_assoc]

/-- Settles O16: such an opcode is not fetched, and the halt entry sets the halt condition only. -/
theorem unrecognisedOpcodeHaltsTheCore : Obligations.UnrecognisedOpcodeHaltsTheCore := by
  intro s hrun hop
  have hnone : fetchInstr s = none := by
    refine Option.eq_none_iff_forall_ne_some.mpr fun i hf => ?_
    obtain ⟨hrec, hset⟩ := (exists_fetchInstr_iff s).mp ⟨i, hf⟩
    obtain hnrec | hnset := hop
    · exact hnrec hrec
    · exact absurd (hset.symm.trans hnset) nofun
  refine ⟨raiseUnrecognizedOpcode s, step_of_no_fetch hrun hnone, ?_, fun q => State.reg_setHalt q _ s, rfl, rfl,
    sameMemory_of_mem_eq rfl, rfl⟩
  rw [byteAt_toNat]
  rfl

/-- Settles O19: the next state is `afterExec`. -/
theorem dispatchedHandlerAlwaysCompletes : Obligations.DispatchedHandlerAlwaysCompletes :=
  fun i s => ⟨afterExec i s, exec_eq i s, afterExec_halt i s, afterExec_params i s⟩

/-- Settles O17: the first step of such a run is the fault, and ends it. -/
theorem haltedStateIsTerminal : Obligations.HaltedStateIsTerminal := by
  intro s op hhalt
  have hstep : step s = .fault (.halted op) := step_of_halted hhalt
  refine ⟨run_succ_of_fault hstep, ?_⟩
  rw [hstep]
  exact ⟨rfl, rfl⟩

end Sys2Proof.Claims
end

section
/-!
PROOF of O1: the registers, the halt condition and the memory after `create` (R29, R96).
-/
namespace Sys2Proof.Machine

/-- No cell is listed, so every address holds the initial content of R29. -/
@[simp] theorem Memory.read_nil (b : Word) : Memory.read [] b = 0x00 := rfl

@[simp] theorem State.reg_create (par : Params) (m : Memory) (q : Reg) :
    (State.create par m).reg q = if q = .sp then 0xFF else 0x00 := by cases q <;> rfl

end Sys2Proof.Machine

open Sys2Proof Sys2Proof.Machine

namespace Sys2Proof.Claims

/-- Settles O1: the registers by `State.reg_create`, the zero memory of the reset state by `Memory.read_nil`. -/
theorem createLeavesTheResetState : Obligations.CreateLeavesTheResetState := by
  intro par m
  exact ⟨State.reg_create par m, rfl, rfl, rfl, rfl, rfl, ⟨defaultParams, rfl⟩, Memory.read_nil⟩

end Sys2Proof.Claims
end
